-- ==== Sys2Proof/Word.lean ====
section
/-!
DEFINITION. The words of the machine (00_scope.md R4): every register, memory cell and address is 8 bits wide.
-/

namespace Sys2Proof

/-- A datum: 8 bits (10_state.md R10). -/
abbrev Byte := BitVec 8

/-- An address: 8 bits, $00 to $FF (20_memory.md R30). Address arithmetic wraps modulo 256 (R39). -/
abbrev Addr := BitVec 8

end Sys2Proof
end

