-- ==== Sys2Proof/Config.lean ====
section
/-!
DEFINITION. What the spec leaves open (92_eei_decisions.md, the open parameters), as constants with no body: no proof can
learn a value, so a claim holds for every value. `Nat` arguments are the number of the draw (`State.draws`), so that two
draws need not agree.
-/

namespace Sys2Proof

/-- The two port addresses, $FB and $FC (20_memory.md R31, R33). -/
inductive Port where
  | fb
  | fc
deriving DecidableEq, Repr

/-- The three events that redirect control through a vector (60_exceptions.md R250). -/
inductive Event where
  | reset
  | trap
  | irq
deriving DecidableEq, Repr

/-- IMAGE (D6), as far as nothing defines it: the content of a memory cell in which neither the loader nor the program has
put a byte (20_memory.md R32, 10_state.md R24). It depends on the address alone: the cell "holds an unspecified value until
first written", and reads "are idempotent". -/
opaque Config.image : Nat → Byte

/-- CC_HIGH_BITS (D1): bits 7..5 of the k-th free value drawn, when CC is read as a byte (10_state.md R18). -/
opaque Config.ccHighBits : Nat → BitVec 3

/-- TRAP_SETS_I (D4): whether Trap entry sets I (60_exceptions.md R258). -/
opaque Config.trapSetsI : Bool

/-- RESET_I (D5): I after a Reset that strikes during a run (70_reset_and_hazards.md R280). -/
opaque Config.resetI : Bool

/-- A, X, Y or SP after a Reset that strikes during a run: "unspecified (each a draw)" (R280). -/
opaque Config.resetByte : Nat → Byte

/-- N, Z, V or C after a Reset that strikes during a run: "unspecified (each a draw)" (R280). -/
opaque Config.resetFlag : Nat → Bool

/-- PORT_IN (D7): the byte a read of the port gives when the environment has scheduled none (20_memory.md R33). -/
opaque Config.portIn : Port → Nat → Byte

/-- IRQ_LINE (D8): the level of the interrupt line at a boundary for which the environment has scheduled nothing
(60_exceptions.md R252). -/
opaque Config.irqLine : Nat → Bool

/-- ENTRY_CYCLES (D23): clock cycles of reset and of the Trap and IRQ entries; timing only. -/
opaque Config.entryCycles : Event → Nat

end Sys2Proof
end

