-- ==== Sys2Proof/Machine/Memory.lean ====
section
/-!
DEFINITION. The memory cells (20_memory.md R30 to R32): a list of (address, byte) pairs in one canonical form, which is a
partial function from addresses to bytes. A listed cell holds what the loader placed there or the program last wrote; a cell
that is not listed has had nothing placed or written, and its content is free: `Config.image` (R32: "a draw ... never as
zero").
-/

namespace Sys2Proof.Machine

/-- The cells that hold a specified byte, by rising address. -/
abbrev Memory := List Host.Cell

/-- The address is one of the two ports, which store nothing (20_memory.md R33). -/
def isPortNumber (a : Nat) : Bool := a == 0xFB || a == 0xFC

/-- The byte placed in or last written to the cell `a`; none if its content is unspecified. -/
def Memory.specified (m : Memory) (a : Nat) : Option Byte :=
  match m with
  | [] => none
  | (k, v) :: rest => if k = a then some v else Memory.specified rest a

/-- The content of the cell `a`: "the value last written to `addr` ..., or, if none was written since reset, the value
`IMAGE(addr)`" (R32); where that is unspecified too, a free value that stays the same until the cell is written (log 5). -/
def Memory.read (m : Memory) (a : Nat) : Byte :=
  match m.specified a with
  | some v => v
  | none => Config.image a

/-- The cells without `a`: its content becomes unspecified (RMB, 30_encoding.md R66). -/
def Memory.erase (m : Memory) (a : Nat) : Memory :=
  match m with
  | [] => []
  | (k, v) :: rest => if k = a then Memory.erase rest a else (k, v) :: Memory.erase rest a

/-- Put the cell `a` before the first cell of a higher address. -/
def Memory.insert (m : Memory) (a : Nat) (v : Byte) : Memory :=
  match m with
  | [] => [(a, v)]
  | (k, w) :: rest => if k < a then (k, w) :: Memory.insert rest a v else (a, v) :: (k, w) :: rest

/-- Replace the content of the cell `a` by `v` (R32). -/
def Memory.write (m : Memory) (a : Nat) (v : Byte) : Memory := Memory.insert (Memory.erase m a) a v

/-- Every cell has an address of at least `lo` and below 256 that is no port; addresses rise strictly. -/
def Memory.wfFrom (lo : Nat) (m : Memory) : Bool :=
  match m with
  | [] => true
  | (k, _) :: rest => decide (lo ≤ k) && decide (k < 256) && !isPortNumber k && Memory.wfFrom (k + 1) rest

/-- The canonical form. An unlisted cell has no specified byte, so every written byte is listed, a zero too. -/
def Memory.wf (m : Memory) : Bool := Memory.wfFrom 0 m

end Sys2Proof.Machine
end

