-- ==== Sys2Proof/Machine/State.lean ====
section
/-!
DEFINITION. The state of the machine (10_state.md), with the environment's scheduled inputs and the record of the port
events, and the state after reset. Plain data.
-/

namespace Sys2Proof.Machine

/-- What the environment does at one instruction boundary: the level of the interrupt line sampled there (10_state.md
R22, 60_exceptions.md R252), or an asserted Reset input (70_reset_and_hazards.md R280). -/
inductive BoundaryInput where
  | line (level : Bool)
  | reset
deriving DecidableEq, Repr

/-- An access to a port (20_memory.md R33): `input p v` is the event (in, p, v), `output p v` the event (out, p, v). -/
inductive PortEvent where
  | input (p : Port) (v : Byte)
  | output (p : Port) (v : Byte)
deriving DecidableEq, Repr

/-- The machine at an instruction boundary; inside an instruction `pc` has passed its bytes (10_state.md R26). -/
structure State where
  /-- A, the accumulator (R11) -/
  a : Byte
  /-- X, address register (R12) -/
  x : Byte
  /-- Y, address register (R12) -/
  y : Byte
  /-- SP, the address of the last byte pushed (R13) -/
  sp : Byte
  /-- PC (R14) -/
  pc : Byte
  /-- I, interrupt mask, bit 4 of CC (R15, R17): true masks the interrupt -/
  flagI : Bool
  /-- N, bit 3 of CC (R15, R16) -/
  flagN : Bool
  /-- Z, bit 2 of CC (R15, R16) -/
  flagZ : Bool
  /-- V, bit 1 of CC (R15, R16) -/
  flagV : Bool
  /-- C, bit 0 of CC (R15, R16) -/
  flagC : Bool
  /-- the 254 non-port cells (R20): those that hold a specified byte -/
  mem : Memory
  /-- the environment's inputs at the coming instruction boundaries, next first (R22) -/
  boundary : List BoundaryInput
  /-- the bytes the environment presents to the coming reads of port $FB, next first (20_memory.md R33) -/
  inFB : List Byte
  /-- the bytes the environment presents to the coming reads of port $FC, next first (R33) -/
  inFC : List Byte
  /-- the port events so far, oldest first (R33) -/
  events : List PortEvent
  /-- the MODEL's own field: how many free values have been drawn (log 8) -/
  draws : Nat
deriving DecidableEq, Repr

/-- The faults of the model: none. The machine's exceptions (Trap, IRQ, Reset) are next states, and "from every state the
step of `10_state.md` rule R25 has a successor" (93_implementation_defined.md part 1). Nobody raises a fault; safe. -/
inductive Fault where
deriving DecidableEq, Repr

/-- The refusals of the model. -/
inductive Refusal where
  /-- Raised by an arm of `exec` for an instruction that has no meaning yet; safe: the model stops where the hardware
  goes on. No arm raises it now. -/
  | notModelled (mnemonic : String)
deriving DecidableEq, Repr

/-- The machine right after reset (70_reset_and_hazards.md R280, 10_state.md R24). PC is the content of cell $FF. The spec
gives no value for A, X, Y, SP, N, Z, V, C (DESIGN CHOICE, log 3), for I (DESIGN CHOICE, log 4), for the reset vector's cell
$FF, which gives PC its value (DESIGN CHOICE, log 30), and for the environment's inputs (log 6, 7). Every other memory cell
is unspecified and reads as a free value (R24, R32, log 5). -/
def State.reset : State where
  a := 0
  x := 0
  y := 0
  sp := 0
  pc := Memory.read [(0xFF, 0x00)] 0xFF
  flagI := true
  flagN := false
  flagZ := false
  flagV := false
  flagC := false
  mem := [(0xFF, 0x00)]
  boundary := []
  inFB := []
  inFC := []
  events := []
  draws := 0

end Sys2Proof.Machine
end

