-- ==== Sys2Proof/Machine/Ops.lean ====
section
/-!
DEFINITION. The operations every instruction is made of: register writes, MemRead and MemWrite (20_memory.md R32, R33),
push and pull (10_state.md R13), CC as a byte (R19), the entry to an exception and the return from one (60_exceptions.md
R255, 42_flow_control.md R159), and what happens at an instruction boundary (60_exceptions.md R253, 70_reset_and_hazards.md
R280).
-/

namespace Sys2Proof.Machine

/-! ### Registers and flags -/

def State.setA (v : Byte) (s : State) : State := { s with a := v }
def State.setX (v : Byte) (s : State) : State := { s with x := v }
def State.setY (v : Byte) (s : State) : State := { s with y := v }
def State.setSP (v : Byte) (s : State) : State := { s with sp := v }
def State.setPC (v : Byte) (s : State) : State := { s with pc := v }
def State.setMem (m : Memory) (s : State) : State := { s with mem := m }
def State.setI (i : Bool) (s : State) : State := { s with flagI := i }

/-- Write the flags N, Z, V (instructions with a `-` under C). -/
def State.setNZV (n z v : Bool) (s : State) : State := { s with flagN := n, flagZ := z, flagV := v }

/-- Write the flags N, Z, V, C. -/
def State.setNZVC (n z v c : Bool) (s : State) : State := { s with flagN := n, flagZ := z, flagV := v, flagC := c }

/-! ### MemRead and MemWrite -/

/-- The port at an address, if it is one (20_memory.md R31). -/
def portOf (adr : Addr) : Option Port :=
  if adr = 0xFB then some .fb else if adr = 0xFC then some .fc else none

/-- The address of a port (R31). -/
def portAddress : Port → Addr
  | .fb => 0xFB
  | .fc => 0xFC

/-- The content of the memory cell at an address; no access. -/
def State.peek (s : State) (adr : Addr) : Byte := s.mem.read adr.toNat

/-- The bytes the environment has scheduled for a port, next first. -/
def State.scheduled (s : State) : Port → List Byte
  | .fb => s.inFB
  | .fc => s.inFC

def State.setScheduled (p : Port) (bytes : List Byte) (s : State) : State :=
  match p with
  | .fb => { s with inFB := bytes }
  | .fc => { s with inFC := bytes }

/-- PORT_IN (R33, D7): the byte the next read of the port gives: the one the environment has scheduled, else a free
value (log 6). -/
def State.portInput (s : State) (p : Port) : Byte :=
  match s.scheduled p with
  | v :: _ => v
  | [] => Config.portIn p s.draws

/-- Append a port event to the record (R33). -/
def State.record (e : PortEvent) (s : State) : State := { s with events := s.events ++ [e] }

/-- Count one free value as drawn. -/
def State.countDraw (s : State) : State := { s with draws := s.draws + 1 }

/-- What reading a port does besides giving its byte: the input event is recorded, the scheduled byte is used up. -/
def State.takeInput (p : Port) (s : State) : State :=
  ((s.setScheduled p (s.scheduled p).tail).record (.input p (s.portInput p))).countDraw

/-- The byte that MemRead(adr, 1) returns (R32, R33). -/
def readValue (adr : Addr) (s : State) : Byte :=
  match portOf adr with
  | none => s.peek adr
  | some p => s.portInput p

/-- The state after MemRead(adr, 1): unchanged for a memory cell ("Reads have no side effect", R32). -/
def afterRead (adr : Addr) (s : State) : State :=
  match portOf adr with
  | none => s
  | some p => s.takeInput p

/-- MemRead(adr, 1). -/
def memRead (adr : Addr) (s : State) : Byte × State := (readValue adr s, afterRead adr s)

/-- MemWrite(adr, 1, v): a memory cell takes the value (R32); a port records an output event and "stores nothing" (R33). -/
def memWrite (adr : Addr) (v : Byte) (s : State) : State :=
  match portOf adr with
  | none => s.setMem (s.mem.write adr.toNat v)
  | some p => s.record (.output p v)

/-! ### The stack -/

/-- push(v): `SP <- u8(SP - 1); MemWrite(SP, 1, v)` (10_state.md R13). -/
def push (v : Byte) (s : State) : State := memWrite (s.sp - 1) v (s.setSP (s.sp - 1))

/-- pull(): `t <- MemRead(SP, 1); SP <- u8(SP + 1); return t` (R13). -/
def pull (s : State) : Byte × State := (readValue s.sp s, (afterRead s.sp s).setSP (s.sp + 1))

/-! ### CC as a byte -/

/-- The byte `h ++ I ++ N ++ Z ++ V ++ C` (10_state.md R15, R19). -/
def State.ccByte (s : State) (h : BitVec 3) : Byte :=
  h ++ BitVec.ofBool s.flagI ++ BitVec.ofBool s.flagN ++ BitVec.ofBool s.flagZ ++ BitVec.ofBool s.flagV
    ++ BitVec.ofBool s.flagC

/-- cc_read(): bits 7..5 are a fresh free value (R18, R19, log 1). -/
def readCC (s : State) : Byte × State := (s.ccByte (Config.ccHighBits s.draws), s.countDraw)

/-- cc_write(v): `I <- v[4]; N <- v[3]; Z <- v[2]; V <- v[1]; C <- v[0]`, bits 7..5 ignored (R19). -/
def writeCC (v : Byte) (s : State) : State :=
  (s.setI (v.getLsbD 4)).setNZVC (v.getLsbD 3) (v.getLsbD 2) (v.getLsbD 1) (v.getLsbD 0)

/-! ### Taking an exception and returning from one -/

/-- The vector cell of an event (20_memory.md R31, 60_exceptions.md R250). -/
def vectorOf : Event → Addr
  | .reset => 0xFF
  | .trap => 0xFE
  | .irq => 0xFD

/-- Whether the entry sets I: IRQ always, Trap if TRAP_SETS_I (R258, D4); Reset makes no frame. -/
def entrySetsI : Event → Bool
  | .irq => true
  | .trap => Config.trapSetsI
  | .reset => false

/-- The five pushes of the entry sequence, PC first and CC last (R254, R255); `c` is CC before the entry. -/
def pushFrame (ret c : Byte) (s : State) : State :=
  push c (push s.a (push s.x (push s.y (push ret s))))

/-- `PC <- MemRead(v, 1)`: the cell holds an address (20_memory.md R34, 60_exceptions.md R259). -/
def jumpThroughVector (v : Addr) (s : State) : State := (afterRead v s).setPC (readValue v s)

/-- The entry sequence of Trap and IRQ (R255): CC is read, the frame pushed, I set if the event sets it, and PC loaded
from the vector cell, in this order. -/
def enterException (e : Event) (ret : Byte) (s : State) : State :=
  let framed := pushFrame ret (readCC s).1 (readCC s).2
  jumpThroughVector (vectorOf e) (framed.setI (framed.flagI || entrySetsI e))

/-- RTI's five pulls: CC, A, X, Y, PC (42_flow_control.md R159, 60_exceptions.md R262). -/
def returnFromException (s : State) : State :=
  let cc := pull s
  let a := pull (writeCC cc.1 cc.2)
  let x := pull (a.2.setA a.1)
  let y := pull (x.2.setX x.1)
  let pc := pull (y.2.setY y.1)
  pc.2.setPC pc.1

/-- The reset sequence (70_reset_and_hazards.md R280), for a Reset that strikes at an instruction boundary (log 10):
`PC <- MemRead($FF, 1)`, I is RESET_I, the other registers and flags are free values; memory is not changed. -/
def resetSequence (s : State) : State :=
  let t := jumpThroughVector (vectorOf .reset) s
  { t with
    a := Config.resetByte t.draws
    x := Config.resetByte (t.draws + 1)
    y := Config.resetByte (t.draws + 2)
    sp := Config.resetByte (t.draws + 3)
    flagI := Config.resetI
    flagN := Config.resetFlag (t.draws + 4)
    flagZ := Config.resetFlag (t.draws + 5)
    flagV := Config.resetFlag (t.draws + 6)
    flagC := Config.resetFlag (t.draws + 7)
    draws := t.draws + 8 }

/-! ### The instruction boundary -/

/-- What happens at an instruction boundary (60_exceptions.md R253, R260): Reset dominates; else the interrupt is taken
if the line is high and I = 0; else (`none`) an instruction is fetched. A boundary for which the environment has
scheduled nothing has a free line level (D8, log 7). -/
def State.boundaryEvent (s : State) : Option Event :=
  match s.boundary with
  | .reset :: _ => some .reset
  | .line level :: _ => if !s.flagI && level then some .irq else none
  | [] => if !s.flagI && Config.irqLine s.draws then some .irq else none

/-- Go past an instruction boundary: its scheduled input is used up. Nothing remembers the line (R253: "ignored, not
remembered"). -/
def State.passBoundary (s : State) : State := { s with boundary := s.boundary.tail, draws := s.draws + 1 }

end Sys2Proof.Machine
end

