-- ==== Sys2Proof/Syntax.lean ====
section
/-!
DEFINITION. The instructions of spec/opcode_table.json. One constructor per mnemonic of the table; the rows of one
mnemonic are the values of its operand argument, in the addressing modes of 30_encoding.md R52 to R59. Which mnemonic
has which modes (R60) is `Instr.wf` of WellFormed.lean.
-/

namespace Sys2Proof

/-- The two address registers; "R" in the names of the addressing modes (30_encoding.md R57 to R59). -/
inductive Index where
  | x
  | y
deriving DecidableEq, Repr

/-- The four automatic updates of 30_encoding.md R59: `,R+`, `,R-`, `,+R`, `,-R`. -/
inductive Auto where
  | postInc
  | postDec
  | preInc
  | preDec
deriving DecidableEq, Repr

/-- A memory operand without automatic update, by its mode code: absolute (R54), stack-pointer indexed (R56), register
indexed with a constant (R57) and register indexed with the accumulator (R58). -/
inductive Ea where
  | ab (adr : Byte)
  | ns (n : Byte)
  | nx (n : Byte)
  | ax
  | ny (n : Byte)
  | ay
deriving DecidableEq, Repr

/-- A memory operand, with or without automatic increment or decrement (R59). -/
inductive Loc where
  | ea (m : Ea)
  | auto (r : Index) (k : Auto)
deriving DecidableEq, Repr

/-- A source operand: the immediate byte (R53) or a memory operand. -/
inductive Src where
  | im (data : Byte)
  | loc (l : Loc)
deriving DecidableEq, Repr

/-- The instructions, in the order of the opcode table. A constructor's docstring names its rule. -/
inductive Instr where
  /-- 48_misc.md R240 -/
  | nop
  /-- 45_logical.md R202 -/
  | andcc (data : Byte)
  /-- 45_logical.md R203 -/
  | orcc (data : Byte)
  /-- One of the six undefined operation codes, which raises Trap: 30_encoding.md R61, 60_exceptions.md R251 -/
  | undefined (code : Byte)
  /-- 43_integer_arithmetic.md R174 -/
  | clra
  /-- R176 -/
  | nega
  /-- R180 -/
  | inca
  /-- R178 -/
  | deca
  /-- 44_integer_test.md R195 -/
  | tsta
  /-- 45_logical.md R205 -/
  | coma
  /-- 46_shift_rotate.md R212 -/
  | lsla
  /-- R214 -/
  | lsra
  /-- R216 -/
  | rola
  /-- R218 -/
  | rora
  /-- R210 -/
  | asra
  /-- 47_stack.md R225 -/
  | psha
  /-- R226 -/
  | pshx
  /-- R227 -/
  | pshy
  /-- R228 -/
  | pshcc
  /-- R229 -/
  | pula
  /-- R230 -/
  | pulx
  /-- R231 -/
  | puly
  /-- R232 -/
  | pulcc
  /-- TFR A,CC: 41_data_movement.md R120 -/
  | tfrAToCC
  /-- TFR CC,A: R121 -/
  | tfrCCToA
  /-- TFR X,Y: R122 -/
  | tfrXToY
  /-- TFR Y,X: R123 -/
  | tfrYToX
  /-- TFR X,SP: R124 -/
  | tfrXToSP
  /-- TFR SP,X: R125 -/
  | tfrSPToX
  /-- TFR Y,SP: R126 -/
  | tfrYToSP
  /-- TFR SP,Y: R127 -/
  | tfrSPToY
  /-- 42_flow_control.md R143 -/
  | bsr (offset : Byte)
  /-- R142 -/
  | bra (offset : Byte)
  /-- R144 -/
  | bmi (offset : Byte)
  /-- R145 -/
  | bpl (offset : Byte)
  /-- R146 -/
  | beq (offset : Byte)
  /-- R147 -/
  | bne (offset : Byte)
  /-- R148 -/
  | bvs (offset : Byte)
  /-- R149 -/
  | bvc (offset : Byte)
  /-- R150, alias BLO -/
  | bcs (offset : Byte)
  /-- R151, alias BHS -/
  | bcc (offset : Byte)
  /-- R152 -/
  | bhi (offset : Byte)
  /-- R153 -/
  | bls (offset : Byte)
  /-- R154 -/
  | bgt (offset : Byte)
  /-- R155 -/
  | bge (offset : Byte)
  /-- R156 -/
  | ble (offset : Byte)
  /-- R157 -/
  | blt (offset : Byte)
  /-- 40_load_store.md R108 -/
  | stx (m : Ea)
  /-- R109 -/
  | sty (m : Ea)
  /-- R110 -/
  | stsp (m : Ea)
  /-- 42_flow_control.md R140 -/
  | jmp (m : Ea)
  /-- R141 -/
  | jsr (m : Ea)
  /-- 43_integer_arithmetic.md R175 -/
  | clr (m : Ea)
  /-- R177 -/
  | neg (m : Ea)
  /-- R181 -/
  | inc (m : Ea)
  /-- R179 -/
  | dec (m : Ea)
  /-- 44_integer_test.md R196 -/
  | tst (m : Ea)
  /-- 45_logical.md R206 -/
  | com (m : Ea)
  /-- 46_shift_rotate.md R213, alias ASL -/
  | lsl (m : Ea)
  /-- R215 -/
  | lsr (m : Ea)
  /-- R217 -/
  | rol (m : Ea)
  /-- R219 -/
  | ror (m : Ea)
  /-- R211 -/
  | asr (m : Ea)
  /-- 42_flow_control.md R158 -/
  | rts
  /-- R159 -/
  | rti
  /-- 40_load_store.md R101 -/
  | ldx (o : Src)
  /-- R102 -/
  | ldy (o : Src)
  /-- R103 -/
  | ldsp (o : Src)
  /-- 43_integer_arithmetic.md R173 -/
  | sbca (o : Src)
  /-- R172 -/
  | suba (o : Src)
  /-- R171 -/
  | adca (o : Src)
  /-- R170 -/
  | adda (o : Src)
  /-- 44_integer_test.md R190 -/
  | cmpa (o : Src)
  /-- R194 -/
  | bita (o : Src)
  /-- 45_logical.md R200 -/
  | anda (o : Src)
  /-- R201 -/
  | ora (o : Src)
  /-- R204 -/
  | eora (o : Src)
  /-- 44_integer_test.md R191 -/
  | cmpx (o : Src)
  /-- R192 -/
  | cmpy (o : Src)
  /-- R193 -/
  | cmpsp (o : Src)
  /-- EXG A,CC: 41_data_movement.md R128 -/
  | exgACC
  /-- EXG X,Y: R129 -/
  | exgXY
  /-- 40_load_store.md R106 -/
  | leasp (m : Ea)
  /-- EXG X,SP: 41_data_movement.md R130 -/
  | exgXSP
  /-- 40_load_store.md R104 -/
  | leax (m : Ea)
  /-- R105 -/
  | leay (m : Ea)
  /-- EXG Y,SP: 41_data_movement.md R131 -/
  | exgYSP
  /-- 40_load_store.md R107 -/
  | sta (l : Loc)
  /-- R100 -/
  | lda (o : Src)
deriving DecidableEq, Repr

end Sys2Proof
end

