-- ==== Sys2Proof/Machine/Operands.lean ====
section
/-!
DEFINITION. The addressing modes (30_encoding.md R52 to R59): the effective address of a memory operand, the automatic
updates, and the value of a source operand. Every sum is modulo 256 (20_memory.md R39).
-/

namespace Sys2Proof.Machine

/-- The content of X or Y. -/
def State.index (s : State) : Index → Byte
  | .x => s.x
  | .y => s.y

def State.setIndex (r : Index) (v : Byte) (s : State) : State :=
  match r with
  | .x => s.setX v
  | .y => s.setY v

/-- The effective address EA of a mode without automatic update (R54, R56 to R58). -/
def eaOf (m : Ea) (s : State) : Addr :=
  match m with
  | .ab adr => adr
  | .ns n => s.sp + n
  | .nx n => s.x + n
  | .ax => s.x + s.a
  | .ny n => s.y + n
  | .ay => s.y + s.a

/-- The register after its automatic update: one up or one down (R59). -/
def Auto.updated (k : Auto) (v : Byte) : Byte :=
  match k with
  | .postInc | .preInc => v + 1
  | .postDec | .preDec => v - 1

/-- The effective address of an automatic mode: the register before a post-update, after a pre-update (R59). -/
def Auto.address (k : Auto) (v : Byte) : Addr :=
  match k with
  | .postInc | .postDec => v
  | .preInc => v + 1
  | .preDec => v - 1

/-- The address of a memory operand. -/
def locAddress (l : Loc) (s : State) : Addr :=
  match l with
  | .ea m => eaOf m s
  | .auto r k => Auto.address k (s.index r)

/-- The state with the automatic update done. The access that goes with it touches no index register, so a post-update
may stand before it (log 22). -/
def afterUpdate (l : Loc) (s : State) : State :=
  match l with
  | .ea _ => s
  | .auto r k => s.setIndex r (Auto.updated k (s.index r))

/-- The value of a source operand: the immediate byte (R53) or the byte at the operand's address. -/
def srcValue (o : Src) (s : State) : Byte :=
  match o with
  | .im data => data
  | .loc l => readValue (locAddress l s) s

/-- The state after a source operand is read: index register updated, port read done. -/
def afterSrc (o : Src) (s : State) : State :=
  match o with
  | .im _ => s
  | .loc l => afterRead (locAddress l s) (afterUpdate l s)

/-- The target of a relative branch: PC, already past the branch, plus the offset (R55, 42_flow_control.md R160). -/
def branchTarget (offset : Byte) (s : State) : Addr := s.pc + offset

end Sys2Proof.Machine
end

