-- ==== Sys2Proof/Machine/Flags.lean ====
section
/-!
DEFINITION. Every result and flag computation: addition and subtraction by exact arithmetic (00_scope.md R6, R7), the
one-operand operations of files 43, 45 and 46, and the shared shapes "operand into A", "operand tested against a
register", "A rewritten" and "memory byte rewritten" that the instructions are written over.
-/

namespace Sys2Proof.Machine

/-- A result with the four result flags it leaves. -/
structure Result where
  r : Byte
  n : Bool
  z : Bool
  v : Bool
  c : Bool
deriving DecidableEq, Repr

/-- N and Z of a byte (R8). -/
def negative (r : Byte) : Bool := r.msb
def isZero (r : Byte) : Bool := r == 0

/-- A result whose N and Z follow it (R8), with the given V and C. -/
def Result.ofByte (r : Byte) (v c : Bool) : Result := ⟨r, negative r, isZero r, v, c⟩

/-- `add8(a, b, cin)` (R6): the exact sum, its low byte, the carry out, two's-complement overflow. -/
def add8 (a b : Byte) (cin : Bool) : Result :=
  let sum := a.toNat + b.toNat + cin.toNat
  let r : Byte := BitVec.ofNat 8 sum
  Result.ofByte r (a.msb == b.msb && r.msb != a.msb) (decide (256 ≤ sum))

/-- `sub8(a, b, bin)` (R7): the exact difference, its low byte, the borrow, two's-complement overflow. -/
def sub8 (a b : Byte) (bin : Bool) : Result :=
  let diff : Int := (a.toNat : Int) - (b.toNat : Int) - (bin.toNat : Int)
  let r : Byte := BitVec.ofInt 8 diff
  Result.ofByte r (a.msb != b.msb && r.msb != a.msb) (decide (diff < 0))

/-! ### Two-operand operations: result from the register, the operand and the old C -/

/-- ADDA (43_integer_arithmetic.md R170): the old C is no input. -/
def addOp (a m : Byte) (_ : Bool) : Result := add8 a m false
/-- ADCA (R171). -/
def adcOp (a m : Byte) (cold : Bool) : Result := add8 a m cold
/-- SUBA and the compares (R172, 44_integer_test.md R190 to R193). -/
def subOp (a m : Byte) (_ : Bool) : Result := sub8 a m false
/-- SBCA (R173). -/
def sbcOp (a m : Byte) (cold : Bool) : Result := sub8 a m cold
/-- ANDA and BITA (45_logical.md R200, 44_integer_test.md R194): V cleared, C unchanged. -/
def andOp (a m : Byte) (cold : Bool) : Result := Result.ofByte (a &&& m) false cold
/-- ORA (45_logical.md R201): V cleared, C unchanged. -/
def orOp (a m : Byte) (cold : Bool) : Result := Result.ofByte (a ||| m) false cold
/-- EORA (R204): V cleared, C unchanged. -/
def eorOp (a m : Byte) (cold : Bool) : Result := Result.ofByte (a ^^^ m) false cold

/-! ### One-operand operations: result from the operand and the old C -/

/-- NEGA, NEG (43_integer_arithmetic.md R176, R177). -/
def negOp (m : Byte) (_ : Bool) : Result := Result.ofByte (0 - m) (m == 0x80) (m != 0)
/-- DECA, DEC (R178, R179): C unchanged. -/
def decOp (m : Byte) (cold : Bool) : Result := Result.ofByte (m - 1) (m == 0x80) cold
/-- INCA, INC (R180, R181): C unchanged. -/
def incOp (m : Byte) (cold : Bool) : Result := Result.ofByte (m + 1) (m == 0x7F) cold
/-- COMA, COM (45_logical.md R205, R206): V cleared, C unchanged. -/
def comOp (m : Byte) (cold : Bool) : Result := Result.ofByte (~~~m) false cold
/-- ASRA, ASR (46_shift_rotate.md R210, R211): bit 7 copied into itself. -/
def asrOp (m : Byte) (_ : Bool) : Result := Result.ofByte ((m &&& 0x80) ||| (m >>> 1)) false (m.getLsbD 0)
/-- LSLA, LSL (R212, R213). -/
def lslOp (m : Byte) (_ : Bool) : Result :=
  Result.ofByte (m <<< 1) (m.getLsbD 7 ^^ m.getLsbD 6) (m.getLsbD 7)
/-- LSRA, LSR (R214, R215): V is the old bit 7. -/
def lsrOp (m : Byte) (_ : Bool) : Result := Result.ofByte (m >>> 1) (m.getLsbD 7) (m.getLsbD 0)
/-- ROLA, ROL (R216, R217): the old C enters bit 0. -/
def rolOp (m : Byte) (cold : Bool) : Result :=
  Result.ofByte ((m <<< 1) ||| BitVec.ofNat 8 cold.toNat) (m.getLsbD 7 ^^ m.getLsbD 6) (m.getLsbD 7)
/-- RORA, ROR (R218, R219): the old C enters bit 7. -/
def rorOp (m : Byte) (cold : Bool) : Result :=
  Result.ofByte ((BitVec.ofNat 8 cold.toNat <<< 7) ||| (m >>> 1)) (cold ^^ m.getLsbD 7) (m.getLsbD 0)
/-- TSTA, TST (44_integer_test.md R195, R196): V and C cleared. -/
def tstOp (m : Byte) (_ : Bool) : Result := Result.ofByte m false false
/-- CLRA, CLR (43_integer_arithmetic.md R174, R175). -/
def clrOp (_ : Byte) (_ : Bool) : Result := Result.ofByte 0 false false

/-! ### The shared shapes -/

/-- Write the four result flags. -/
def State.setFlags (f : Result) (s : State) : State := s.setNZVC f.n f.z f.v f.c

/-- Load's flags: N and Z of the byte, V cleared, C unchanged (40_load_store.md R100). -/
def State.setLoadFlags (v : Byte) (s : State) : State := s.setNZV (negative v) (isZero v) false

/-- A takes the result of A and the operand. -/
def operateA (op : Byte → Byte → Bool → Result) (o : Src) (s : State) : State :=
  let f := op s.a (srcValue o s) s.flagC
  ((afterSrc o s).setA f.r).setFlags f

/-- A register's content and the operand set the flags; the result is discarded. -/
def testAgainst (op : Byte → Byte → Bool → Result) (reg : Byte) (o : Src) (s : State) : State :=
  (afterSrc o s).setFlags (op reg (srcValue o s) s.flagC)

/-- A takes the result of A. -/
def rewriteA (op : Byte → Bool → Result) (s : State) : State :=
  let f := op s.a s.flagC
  (s.setA f.r).setFlags f

/-- The byte at EA is read once and the result written to the same EA once (20_memory.md R38). -/
def rewriteMemory (op : Byte → Bool → Result) (m : Ea) (s : State) : State :=
  let f := op (readValue (eaOf m s) s) s.flagC
  (memWrite (eaOf m s) f.r (afterRead (eaOf m s) s)).setFlags f

end Sys2Proof.Machine
end

