-- ==== Sys2Proof/Machine/DataMovement.lean ====
section
/-!
DEFINITION. The "Data movement" group (41_data_movement.md).
-/

namespace Sys2Proof.Machine

/-- TFR A,CC (R120): all five flags from A bits 4..0 (I by D16, log 12). -/
def execTfrAToCC (s : State) : Host.Outcome State Fault Refusal :=
  .next (writeCC s.a s)

/-- TFR CC,A (R121): A takes CC as a byte. -/
def execTfrCCToA (s : State) : Host.Outcome State Fault Refusal :=
  .next ((readCC s).2.setA (readCC s).1)

/-- TFR X,Y (R122). -/
def execTfrXToY (s : State) : Host.Outcome State Fault Refusal :=
  .next (s.setY s.x)

/-- TFR Y,X (R123). -/
def execTfrYToX (s : State) : Host.Outcome State Fault Refusal :=
  .next (s.setX s.y)

/-- TFR X,SP (R124). -/
def execTfrXToSP (s : State) : Host.Outcome State Fault Refusal :=
  .next (s.setSP s.x)

/-- TFR SP,X (R125). -/
def execTfrSPToX (s : State) : Host.Outcome State Fault Refusal :=
  .next (s.setX s.sp)

/-- TFR Y,SP (R126). -/
def execTfrYToSP (s : State) : Host.Outcome State Fault Refusal :=
  .next (s.setSP s.y)

/-- TFR SP,Y (R127). -/
def execTfrSPToY (s : State) : Host.Outcome State Fault Refusal :=
  .next (s.setY s.sp)

/-- EXG A,CC (R128): CC takes the old A, A the old CC as a byte. -/
def execExgACC (s : State) : Host.Outcome State Fault Refusal :=
  .next ((writeCC s.a (readCC s).2).setA (readCC s).1)

/-- EXG X,Y (R129). -/
def execExgXY (s : State) : Host.Outcome State Fault Refusal :=
  .next ((s.setX s.y).setY s.x)

/-- EXG X,SP (R130). -/
def execExgXSP (s : State) : Host.Outcome State Fault Refusal :=
  .next ((s.setX s.sp).setSP s.x)

/-- EXG Y,SP (R131). -/
def execExgYSP (s : State) : Host.Outcome State Fault Refusal :=
  .next ((s.setY s.sp).setSP s.y)

end Sys2Proof.Machine
end

