-- ==== Sys2Proof/Machine/FlowControl.lean ====
section
/-!
DEFINITION. The "Program (Flow) control" group (42_flow_control.md). PC is already past the instruction (10_state.md R26).
-/

namespace Sys2Proof.Machine

/-- A conditional branch (R160): PC takes the branch target if the condition holds, and stays otherwise. -/
def branchIf (taken : Bool) (offset : Byte) (s : State) : State :=
  if taken then s.setPC (branchTarget offset s) else s

/-- JMP (R140): PC takes the effective address. -/
def execJmp (m : Ea) (s : State) : Host.Outcome State Fault Refusal :=
  .next (s.setPC (eaOf m s))

/-- JSR (R141): the return address is pushed, PC takes the effective address formed before the push. -/
def execJsr (m : Ea) (s : State) : Host.Outcome State Fault Refusal :=
  .next ((push s.pc s).setPC (eaOf m s))

/-- BSR (R143): the return address is pushed, PC takes the branch target. -/
def execBsr (offset : Byte) (s : State) : Host.Outcome State Fault Refusal :=
  .next ((push s.pc s).setPC (branchTarget offset s))

/-- BRA (R142): PC takes the branch target. -/
def execBra (offset : Byte) (s : State) : Host.Outcome State Fault Refusal :=
  .next (s.setPC (branchTarget offset s))

/-- BMI (R144). -/
def execBmi (offset : Byte) (s : State) : Host.Outcome State Fault Refusal :=
  .next (branchIf s.flagN offset s)

/-- BPL (R145). -/
def execBpl (offset : Byte) (s : State) : Host.Outcome State Fault Refusal :=
  .next (branchIf (!s.flagN) offset s)

/-- BEQ (R146). -/
def execBeq (offset : Byte) (s : State) : Host.Outcome State Fault Refusal :=
  .next (branchIf s.flagZ offset s)

/-- BNE (R147). -/
def execBne (offset : Byte) (s : State) : Host.Outcome State Fault Refusal :=
  .next (branchIf (!s.flagZ) offset s)

/-- BVS (R148). -/
def execBvs (offset : Byte) (s : State) : Host.Outcome State Fault Refusal :=
  .next (branchIf s.flagV offset s)

/-- BVC (R149). -/
def execBvc (offset : Byte) (s : State) : Host.Outcome State Fault Refusal :=
  .next (branchIf (!s.flagV) offset s)

/-- BCS (R150). -/
def execBcs (offset : Byte) (s : State) : Host.Outcome State Fault Refusal :=
  .next (branchIf s.flagC offset s)

/-- BCC (R151). -/
def execBcc (offset : Byte) (s : State) : Host.Outcome State Fault Refusal :=
  .next (branchIf (!s.flagC) offset s)

/-- BHI (R152). -/
def execBhi (offset : Byte) (s : State) : Host.Outcome State Fault Refusal :=
  .next (branchIf (!(s.flagC || s.flagZ)) offset s)

/-- BLS (R153). -/
def execBls (offset : Byte) (s : State) : Host.Outcome State Fault Refusal :=
  .next (branchIf (s.flagC || s.flagZ) offset s)

/-- BGT (R154). -/
def execBgt (offset : Byte) (s : State) : Host.Outcome State Fault Refusal :=
  .next (branchIf (!((s.flagN ^^ s.flagV) || s.flagZ)) offset s)

/-- BGE (R155). -/
def execBge (offset : Byte) (s : State) : Host.Outcome State Fault Refusal :=
  .next (branchIf (!(s.flagN ^^ s.flagV)) offset s)

/-- BLE (R156). -/
def execBle (offset : Byte) (s : State) : Host.Outcome State Fault Refusal :=
  .next (branchIf ((s.flagN ^^ s.flagV) || s.flagZ) offset s)

/-- BLT (R157). -/
def execBlt (offset : Byte) (s : State) : Host.Outcome State Fault Refusal :=
  .next (branchIf (s.flagN ^^ s.flagV) offset s)

/-- RTS (R158): PC is pulled. -/
def execRts (s : State) : Host.Outcome State Fault Refusal :=
  .next ((pull s).2.setPC (pull s).1)

/-- RTI (R159): CC, A, X, Y, PC are pulled. -/
def execRti (s : State) : Host.Outcome State Fault Refusal :=
  .next (returnFromException s)

end Sys2Proof.Machine
end

