-- ==== Sys2Proof/Machine/IntegerArithmetic.lean ====
section
/-!
DEFINITION. The "Integer arithmetic" group (43_integer_arithmetic.md).
-/

namespace Sys2Proof.Machine

/-- ADDA (R170). -/
def execAdda (o : Src) (s : State) : Host.Outcome State Fault Refusal :=
  .next (operateA addOp o s)

/-- ADCA (R171). -/
def execAdca (o : Src) (s : State) : Host.Outcome State Fault Refusal :=
  .next (operateA adcOp o s)

/-- SUBA (R172). -/
def execSuba (o : Src) (s : State) : Host.Outcome State Fault Refusal :=
  .next (operateA subOp o s)

/-- SBCA (R173). -/
def execSbca (o : Src) (s : State) : Host.Outcome State Fault Refusal :=
  .next (operateA sbcOp o s)

/-- CLRA (R174). -/
def execClra (s : State) : Host.Outcome State Fault Refusal :=
  .next (rewriteA clrOp s)

/-- CLR (R175): the cell is written without being read (D12, log 14). -/
def execClr (m : Ea) (s : State) : Host.Outcome State Fault Refusal :=
  .next ((memWrite (eaOf m s) 0 s).setFlags (clrOp 0 s.flagC))

/-- NEGA (R176). -/
def execNega (s : State) : Host.Outcome State Fault Refusal :=
  .next (rewriteA negOp s)

/-- NEG (R177). -/
def execNeg (m : Ea) (s : State) : Host.Outcome State Fault Refusal :=
  .next (rewriteMemory negOp m s)

/-- DECA (R178). -/
def execDeca (s : State) : Host.Outcome State Fault Refusal :=
  .next (rewriteA decOp s)

/-- DEC (R179). -/
def execDec (m : Ea) (s : State) : Host.Outcome State Fault Refusal :=
  .next (rewriteMemory decOp m s)

/-- INCA (R180). -/
def execInca (s : State) : Host.Outcome State Fault Refusal :=
  .next (rewriteA incOp s)

/-- INC (R181). -/
def execInc (m : Ea) (s : State) : Host.Outcome State Fault Refusal :=
  .next (rewriteMemory incOp m s)

end Sys2Proof.Machine
end

