-- ==== Sys2Proof/Machine/IntegerTest.lean ====
section
/-!
DEFINITION. The "Integer test" group (44_integer_test.md): no register but the flags, no memory cell changes.
-/

namespace Sys2Proof.Machine

/-- CMPA (R190): the flags of A - operand. -/
def execCmpa (o : Src) (s : State) : Host.Outcome State Fault Refusal :=
  .next (testAgainst subOp s.a o s)

/-- CMPX (R191): the flags of X - operand. -/
def execCmpx (o : Src) (s : State) : Host.Outcome State Fault Refusal :=
  .next (testAgainst subOp s.x o s)

/-- CMPY (R192): the flags of Y - operand. -/
def execCmpy (o : Src) (s : State) : Host.Outcome State Fault Refusal :=
  .next (testAgainst subOp s.y o s)

/-- CMPSP (R193): the flags of SP - operand. -/
def execCmpsp (o : Src) (s : State) : Host.Outcome State Fault Refusal :=
  .next (testAgainst subOp s.sp o s)

/-- BITA (R194): the flags of A AND operand. -/
def execBita (o : Src) (s : State) : Host.Outcome State Fault Refusal :=
  .next (testAgainst andOp s.a o s)

/-- TSTA (R195). -/
def execTsta (s : State) : Host.Outcome State Fault Refusal :=
  .next (s.setFlags (tstOp s.a s.flagC))

/-- TST (R196): one read, no write. -/
def execTst (m : Ea) (s : State) : Host.Outcome State Fault Refusal :=
  .next ((afterRead (eaOf m s) s).setFlags (tstOp (readValue (eaOf m s) s) s.flagC))

end Sys2Proof.Machine
end

