-- ==== Sys2Proof/Machine/LoadStore.lean ====
section
/-!
DEFINITION. The "Load/Store" group (40_load_store.md).
-/

namespace Sys2Proof.Machine

/-- LDA (R100): A takes the operand; N, Z from it, V cleared. -/
def execLda (o : Src) (s : State) : Host.Outcome State Fault Refusal :=
  .next (((afterSrc o s).setA (srcValue o s)).setLoadFlags (srcValue o s))

/-- LDX (R101): X takes the operand; N, Z from it, V cleared (D15, log 13). -/
def execLdx (o : Src) (s : State) : Host.Outcome State Fault Refusal :=
  .next (((afterSrc o s).setX (srcValue o s)).setLoadFlags (srcValue o s))

/-- LDY (R102): Y takes the operand; N, Z from it, V cleared (D15, log 13). -/
def execLdy (o : Src) (s : State) : Host.Outcome State Fault Refusal :=
  .next (((afterSrc o s).setY (srcValue o s)).setLoadFlags (srcValue o s))

/-- LDSP (R103): SP takes the operand; N, Z from it, V cleared (D15, log 13). -/
def execLdsp (o : Src) (s : State) : Host.Outcome State Fault Refusal :=
  .next (((afterSrc o s).setSP (srcValue o s)).setLoadFlags (srcValue o s))

/-- LEAX (R104): X takes the effective address; no memory access, no flag. -/
def execLeax (m : Ea) (s : State) : Host.Outcome State Fault Refusal :=
  .next (s.setX (eaOf m s))

/-- LEAY (R105): Y takes the effective address; no memory access, no flag. -/
def execLeay (m : Ea) (s : State) : Host.Outcome State Fault Refusal :=
  .next (s.setY (eaOf m s))

/-- LEASP (R106): SP takes the effective address; no memory access, no flag. -/
def execLeasp (m : Ea) (s : State) : Host.Outcome State Fault Refusal :=
  .next (s.setSP (eaOf m s))

/-- STA (R107): A is stored at the operand's address; no flag. -/
def execSta (l : Loc) (s : State) : Host.Outcome State Fault Refusal :=
  .next (memWrite (locAddress l s) s.a (afterUpdate l s))

/-- STX (R108): X is stored at EA; no flag. -/
def execStx (m : Ea) (s : State) : Host.Outcome State Fault Refusal :=
  .next (memWrite (eaOf m s) s.x s)

/-- STY (R109): Y is stored at EA; no flag. -/
def execSty (m : Ea) (s : State) : Host.Outcome State Fault Refusal :=
  .next (memWrite (eaOf m s) s.y s)

/-- STSP (R110): SP is stored at EA; no flag. -/
def execStsp (m : Ea) (s : State) : Host.Outcome State Fault Refusal :=
  .next (memWrite (eaOf m s) s.sp s)

end Sys2Proof.Machine
end

