-- ==== Sys2Proof/Machine/Logical.lean ====
section
/-!
DEFINITION. The "Logical operations" group (45_logical.md).
-/

namespace Sys2Proof.Machine

/-- ANDA (R200). -/
def execAnda (o : Src) (s : State) : Host.Outcome State Fault Refusal :=
  .next (operateA andOp o s)

/-- ORA (R201). -/
def execOra (o : Src) (s : State) : Host.Outcome State Fault Refusal :=
  .next (operateA orOp o s)

/-- EORA (R204). -/
def execEora (o : Src) (s : State) : Host.Outcome State Fault Refusal :=
  .next (operateA eorOp o s)

/-- ANDCC (R202): `I <- I & b[4]; N <- N & b[3]; Z <- Z & b[2]; V <- V & b[1]; C <- C & b[0]`; `b[7:5]` has no effect. -/
def execAndcc (data : Byte) (s : State) : Host.Outcome State Fault Refusal :=
  .next ((s.setI (s.flagI && data.getLsbD 4)).setNZVC (s.flagN && data.getLsbD 3) (s.flagZ && data.getLsbD 2)
    (s.flagV && data.getLsbD 1) (s.flagC && data.getLsbD 0))

/-- ORCC (R203): `I <- I | b[4]; N <- N | b[3]; Z <- Z | b[2]; V <- V | b[1]; C <- C | b[0]`; `b[7:5]` has no effect. -/
def execOrcc (data : Byte) (s : State) : Host.Outcome State Fault Refusal :=
  .next ((s.setI (s.flagI || data.getLsbD 4)).setNZVC (s.flagN || data.getLsbD 3) (s.flagZ || data.getLsbD 2)
    (s.flagV || data.getLsbD 1) (s.flagC || data.getLsbD 0))

/-- COMA (R205). -/
def execComa (s : State) : Host.Outcome State Fault Refusal :=
  .next (rewriteA comOp s)

/-- COM (R206). -/
def execCom (m : Ea) (s : State) : Host.Outcome State Fault Refusal :=
  .next (rewriteMemory comOp m s)

end Sys2Proof.Machine
end

