-- ==== Sys2Proof/Machine/Misc.lean ====
section
/-!
DEFINITION. The "Misc." group (48_misc.md) and the undefined operation codes (60_exceptions.md R251).
-/

namespace Sys2Proof.Machine

/-- NOP (R240): nothing beyond the fetch. -/
def execNop (s : State) : Host.Outcome State Fault Refusal :=
  .next s

/-- An undefined operation code takes Trap (R251). PC has passed the one byte of the code, so it is the saved PC (R257). -/
def execUndefined (_code : Byte) (s : State) : Host.Outcome State Fault Refusal :=
  .next (enterException .trap s.pc s)

end Sys2Proof.Machine
end

