-- ==== Sys2Proof/Machine/ShiftRotate.lean ====
section
/-!
DEFINITION. The "Shift/rotate" group (46_shift_rotate.md): one place, no count.
-/

namespace Sys2Proof.Machine

/-- ASRA (R210). -/
def execAsra (s : State) : Host.Outcome State Fault Refusal :=
  .next (rewriteA asrOp s)

/-- ASR (R211). -/
def execAsr (m : Ea) (s : State) : Host.Outcome State Fault Refusal :=
  .next (rewriteMemory asrOp m s)

/-- LSLA (R212). -/
def execLsla (s : State) : Host.Outcome State Fault Refusal :=
  .next (rewriteA lslOp s)

/-- LSL (R213). -/
def execLsl (m : Ea) (s : State) : Host.Outcome State Fault Refusal :=
  .next (rewriteMemory lslOp m s)

/-- LSRA (R214). -/
def execLsra (s : State) : Host.Outcome State Fault Refusal :=
  .next (rewriteA lsrOp s)

/-- LSR (R215). -/
def execLsr (m : Ea) (s : State) : Host.Outcome State Fault Refusal :=
  .next (rewriteMemory lsrOp m s)

/-- ROLA (R216). -/
def execRola (s : State) : Host.Outcome State Fault Refusal :=
  .next (rewriteA rolOp s)

/-- ROL (R217). -/
def execRol (m : Ea) (s : State) : Host.Outcome State Fault Refusal :=
  .next (rewriteMemory rolOp m s)

/-- RORA (R218). -/
def execRora (s : State) : Host.Outcome State Fault Refusal :=
  .next (rewriteA rorOp s)

/-- ROR (R219). -/
def execRor (m : Ea) (s : State) : Host.Outcome State Fault Refusal :=
  .next (rewriteMemory rorOp m s)

end Sys2Proof.Machine
end

