-- ==== Sys2Proof/Machine/Stack.lean ====
section
/-!
DEFINITION. The "Stack operations" group (47_stack.md).
-/

namespace Sys2Proof.Machine

/-- PSHA (R225). -/
def execPsha (s : State) : Host.Outcome State Fault Refusal :=
  .next (push s.a s)

/-- PSHX (R226). -/
def execPshx (s : State) : Host.Outcome State Fault Refusal :=
  .next (push s.x s)

/-- PSHY (R227). -/
def execPshy (s : State) : Host.Outcome State Fault Refusal :=
  .next (push s.y s)

/-- PSHCC (R228): CC as a byte is pushed. -/
def execPshcc (s : State) : Host.Outcome State Fault Refusal :=
  .next (push (readCC s).1 (readCC s).2)

/-- PULA (R229): no flag. -/
def execPula (s : State) : Host.Outcome State Fault Refusal :=
  .next ((pull s).2.setA (pull s).1)

/-- PULX (R230): no flag. -/
def execPulx (s : State) : Host.Outcome State Fault Refusal :=
  .next ((pull s).2.setX (pull s).1)

/-- PULY (R231): no flag. -/
def execPuly (s : State) : Host.Outcome State Fault Refusal :=
  .next ((pull s).2.setY (pull s).1)

/-- PULCC (R232): all five flags from the byte (I by D16, log 12). -/
def execPulcc (s : State) : Host.Outcome State Fault Refusal :=
  .next (writeCC (pull s).1 (pull s).2)

end Sys2Proof.Machine
end

