-- ==== Sys2Proof/WellFormed.lean ====
section
/-!
DEFINITION. Which instruction has which addressing modes (30_encoding.md R60) and which codes are undefined (R61). A
term that fails the check has no encoding: the decoder never answers it and the encoder gives it no bytes.
-/

namespace Sys2Proof

/-- The six blank cells of the opcode map (30_encoding.md R61). -/
def undefinedCodes : List Byte := [0x03, 0x04, 0xDF, 0xE0, 0xEF, 0xFF]

/-- Modes ab, nx, ax, ny, ay: JMP and JSR "have no `ns` form" (R60). -/
def Ea.isJumpMode : Ea → Bool
  | .ns _ => false
  | .ab _ | .nx _ | .ax | .ny _ | .ay => true

/-- Modes ab, ns, nx, ny: a memory operand with no accumulator offset (R60). -/
def Ea.isConstantMode : Ea → Bool
  | .ab _ | .ns _ | .nx _ | .ny _ => true
  | .ax | .ay => false

/-- Modes ab, ns: the memory operands of CMPX and CMPY (R60). -/
def Ea.isAbOrNs : Ea → Bool
  | .ab _ | .ns _ => true
  | .nx _ | .ax | .ny _ | .ay => false

/-- Modes nx, ns: LEAX (R60). -/
def Ea.isNxOrNs : Ea → Bool
  | .nx _ | .ns _ => true
  | .ab _ | .ax | .ny _ | .ay => false

/-- Modes ny, ns: LEAY (R60). -/
def Ea.isNyOrNs : Ea → Bool
  | .ny _ | .ns _ => true
  | .ab _ | .nx _ | .ax | .ay => false

/-- Modes ns, nx, ny: LEASP (R60). -/
def Ea.isIndexedByConstant : Ea → Bool
  | .ns _ | .nx _ | .ny _ => true
  | .ab _ | .ax | .ay => false

/-- Mode ab alone: the memory operand of CMPSP (R60). -/
def Ea.isAb : Ea → Bool
  | .ab _ => true
  | .ns _ | .nx _ | .ax | .ny _ | .ay => false

/-- The immediate mode, or a memory operand without automatic update that `p` admits. -/
def Src.isImOr (p : Ea → Bool) : Src → Bool
  | .im _ => true
  | .loc (.ea m) => p m
  | .loc (.auto _ _) => false

/-- The instruction has an encoding (30_encoding.md R60, R61): its mode is one its mnemonic has, and an undefined code
is one of the six. -/
def Instr.wf : Instr → Bool
  | .undefined code => undefinedCodes.contains code
  | .jmp m | .jsr m => m.isJumpMode
  | .ldx o | .ldy o | .ldsp o | .sbca o | .suba o | .adca o | .adda o | .cmpa o | .bita o | .anda o | .ora o
  | .eora o => o.isImOr Ea.isConstantMode
  | .cmpx o | .cmpy o => o.isImOr Ea.isAbOrNs
  | .cmpsp o => o.isImOr Ea.isAb
  | .leax m => m.isNxOrNs
  | .leay m => m.isNyOrNs
  | .leasp m => m.isIndexedByConstant
  | .stx _ | .sty _ | .stsp _ | .clr _ | .neg _ | .inc _ | .dec _ | .tst _ | .com _ | .lsl _ | .lsr _ | .rol _
  | .ror _ | .asr _ | .sta _ | .lda _ => true
  | .nop | .andcc _ | .orcc _ | .clra | .nega | .inca | .deca | .tsta | .coma | .lsla | .lsra | .rola | .rora | .asra
  | .psha | .pshx | .pshy | .pshcc | .pula | .pulx | .puly | .pulcc | .tfrAToCC | .tfrCCToA | .tfrXToY | .tfrYToX
  | .tfrXToSP | .tfrSPToX | .tfrYToSP | .tfrSPToY | .bsr _ | .bra _ | .bmi _ | .bpl _ | .beq _ | .bne _ | .bvs _
  | .bvc _ | .bcs _ | .bcc _ | .bhi _ | .bls _ | .bgt _ | .bge _ | .ble _ | .blt _ | .rts | .rti | .exgACC | .exgXY
  | .exgXSP | .exgYSP => true

end Sys2Proof
end

