-- ==== Sys2Proof/Decode.lean ====
section
/-!
DEFINITION. The opcode map (30_encoding.md R69) and the decoder (R51), then the encoder, written from the encoding
tables of the instruction rules (files 40 to 48). Byte 0 is the operation code, byte 1 the operand byte where there is
one (R50).
-/

namespace Sys2Proof

/-- A cell of the opcode map: a one-byte instruction, or a two-byte instruction of its operand byte (R50). -/
inductive Entry where
  | one (i : Instr)
  | two (k : Byte → Instr)

/-- Column 0_ of the opcode map (30_encoding.md R69), rows _0 to _F. -/
def mapColumn0 : List Entry :=
  [.one .nop,
   .two .andcc,
   .two .orcc,
   .one (.undefined 0x03),
   .one (.undefined 0x04),
   .one .clra,
   .one .nega,
   .one .inca,
   .one .deca,
   .one .tsta,
   .one .coma,
   .one .lsla,
   .one .lsra,
   .one .rola,
   .one .rora,
   .one .asra]

/-- Column 1_ of the opcode map (30_encoding.md R69), rows _0 to _F. -/
def mapColumn1 : List Entry :=
  [.one .psha,
   .one .pshx,
   .one .pshy,
   .one .pshcc,
   .one .pula,
   .one .pulx,
   .one .puly,
   .one .pulcc,
   .one .tfrAToCC,
   .one .tfrCCToA,
   .one .tfrXToY,
   .one .tfrYToX,
   .one .tfrXToSP,
   .one .tfrSPToX,
   .one .tfrYToSP,
   .one .tfrSPToY]

/-- Column 2_ of the opcode map (30_encoding.md R69), rows _0 to _F. -/
def mapColumn2 : List Entry :=
  [.two .bsr,
   .two .bra,
   .two .bmi,
   .two .bpl,
   .two .beq,
   .two .bne,
   .two .bvs,
   .two .bvc,
   .two .bcs,
   .two .bcc,
   .two .bhi,
   .two .bls,
   .two .bgt,
   .two .bge,
   .two .ble,
   .two .blt]

/-- Column 3_ of the opcode map (30_encoding.md R69), rows _0 to _F. -/
def mapColumn3 : List Entry :=
  [.two fun b => .stx (.ab b),
   .two fun b => .sty (.ab b),
   .two fun b => .stsp (.ab b),
   .two fun b => .jmp (.ab b),
   .two fun b => .jsr (.ab b),
   .two fun b => .clr (.ab b),
   .two fun b => .neg (.ab b),
   .two fun b => .inc (.ab b),
   .two fun b => .dec (.ab b),
   .two fun b => .tst (.ab b),
   .two fun b => .com (.ab b),
   .two fun b => .lsl (.ab b),
   .two fun b => .lsr (.ab b),
   .two fun b => .rol (.ab b),
   .two fun b => .ror (.ab b),
   .two fun b => .asr (.ab b)]

/-- Column 4_ of the opcode map (30_encoding.md R69), rows _0 to _F. -/
def mapColumn4 : List Entry :=
  [.two fun b => .stx (.ns b),
   .two fun b => .sty (.ns b),
   .two fun b => .stsp (.ns b),
   .one .rts,
   .one .rti,
   .two fun b => .clr (.ns b),
   .two fun b => .neg (.ns b),
   .two fun b => .inc (.ns b),
   .two fun b => .dec (.ns b),
   .two fun b => .tst (.ns b),
   .two fun b => .com (.ns b),
   .two fun b => .lsl (.ns b),
   .two fun b => .lsr (.ns b),
   .two fun b => .rol (.ns b),
   .two fun b => .ror (.ns b),
   .two fun b => .asr (.ns b)]

/-- Column 5_ of the opcode map (30_encoding.md R69), rows _0 to _F. -/
def mapColumn5 : List Entry :=
  [.two fun b => .stx (.nx b),
   .two fun b => .sty (.nx b),
   .two fun b => .stsp (.nx b),
   .two fun b => .jmp (.nx b),
   .two fun b => .jsr (.nx b),
   .two fun b => .clr (.nx b),
   .two fun b => .neg (.nx b),
   .two fun b => .inc (.nx b),
   .two fun b => .dec (.nx b),
   .two fun b => .tst (.nx b),
   .two fun b => .com (.nx b),
   .two fun b => .lsl (.nx b),
   .two fun b => .lsr (.nx b),
   .two fun b => .rol (.nx b),
   .two fun b => .ror (.nx b),
   .two fun b => .asr (.nx b)]

/-- Column 6_ of the opcode map (30_encoding.md R69), rows _0 to _F. -/
def mapColumn6 : List Entry :=
  [.one (.stx .ax),
   .one (.sty .ax),
   .one (.stsp .ax),
   .one (.jmp .ax),
   .one (.jsr .ax),
   .one (.clr .ax),
   .one (.neg .ax),
   .one (.inc .ax),
   .one (.dec .ax),
   .one (.tst .ax),
   .one (.com .ax),
   .one (.lsl .ax),
   .one (.lsr .ax),
   .one (.rol .ax),
   .one (.ror .ax),
   .one (.asr .ax)]

/-- Column 7_ of the opcode map (30_encoding.md R69), rows _0 to _F. -/
def mapColumn7 : List Entry :=
  [.two fun b => .stx (.ny b),
   .two fun b => .sty (.ny b),
   .two fun b => .stsp (.ny b),
   .two fun b => .jmp (.ny b),
   .two fun b => .jsr (.ny b),
   .two fun b => .clr (.ny b),
   .two fun b => .neg (.ny b),
   .two fun b => .inc (.ny b),
   .two fun b => .dec (.ny b),
   .two fun b => .tst (.ny b),
   .two fun b => .com (.ny b),
   .two fun b => .lsl (.ny b),
   .two fun b => .lsr (.ny b),
   .two fun b => .rol (.ny b),
   .two fun b => .ror (.ny b),
   .two fun b => .asr (.ny b)]

/-- Column 8_ of the opcode map (30_encoding.md R69), rows _0 to _F. -/
def mapColumn8 : List Entry :=
  [.one (.stx .ay),
   .one (.sty .ay),
   .one (.stsp .ay),
   .one (.jmp .ay),
   .one (.jsr .ay),
   .one (.clr .ay),
   .one (.neg .ay),
   .one (.inc .ay),
   .one (.dec .ay),
   .one (.tst .ay),
   .one (.com .ay),
   .one (.lsl .ay),
   .one (.lsr .ay),
   .one (.rol .ay),
   .one (.ror .ay),
   .one (.asr .ay)]

/-- Column 9_ of the opcode map (30_encoding.md R69), rows _0 to _F. -/
def mapColumn9 : List Entry :=
  [.two fun b => .ldx (.im b),
   .two fun b => .ldy (.im b),
   .two fun b => .ldsp (.im b),
   .two fun b => .sbca (.im b),
   .two fun b => .suba (.im b),
   .two fun b => .adca (.im b),
   .two fun b => .adda (.im b),
   .two fun b => .cmpa (.im b),
   .two fun b => .bita (.im b),
   .two fun b => .anda (.im b),
   .two fun b => .ora (.im b),
   .two fun b => .eora (.im b),
   .two fun b => .cmpx (.im b),
   .two fun b => .cmpy (.im b),
   .two fun b => .cmpsp (.im b),
   .one .exgACC]

/-- Column A_ of the opcode map (30_encoding.md R69), rows _0 to _F. -/
def mapColumnA : List Entry :=
  [.two fun b => .ldx (.loc (.ea (.ab b))),
   .two fun b => .ldy (.loc (.ea (.ab b))),
   .two fun b => .ldsp (.loc (.ea (.ab b))),
   .two fun b => .sbca (.loc (.ea (.ab b))),
   .two fun b => .suba (.loc (.ea (.ab b))),
   .two fun b => .adca (.loc (.ea (.ab b))),
   .two fun b => .adda (.loc (.ea (.ab b))),
   .two fun b => .cmpa (.loc (.ea (.ab b))),
   .two fun b => .bita (.loc (.ea (.ab b))),
   .two fun b => .anda (.loc (.ea (.ab b))),
   .two fun b => .ora (.loc (.ea (.ab b))),
   .two fun b => .eora (.loc (.ea (.ab b))),
   .two fun b => .cmpx (.loc (.ea (.ab b))),
   .two fun b => .cmpy (.loc (.ea (.ab b))),
   .two fun b => .cmpsp (.loc (.ea (.ab b))),
   .one .exgXY]

/-- Column B_ of the opcode map (30_encoding.md R69), rows _0 to _F. -/
def mapColumnB : List Entry :=
  [.two fun b => .ldx (.loc (.ea (.ns b))),
   .two fun b => .ldy (.loc (.ea (.ns b))),
   .two fun b => .ldsp (.loc (.ea (.ns b))),
   .two fun b => .sbca (.loc (.ea (.ns b))),
   .two fun b => .suba (.loc (.ea (.ns b))),
   .two fun b => .adca (.loc (.ea (.ns b))),
   .two fun b => .adda (.loc (.ea (.ns b))),
   .two fun b => .cmpa (.loc (.ea (.ns b))),
   .two fun b => .bita (.loc (.ea (.ns b))),
   .two fun b => .anda (.loc (.ea (.ns b))),
   .two fun b => .ora (.loc (.ea (.ns b))),
   .two fun b => .eora (.loc (.ea (.ns b))),
   .two fun b => .cmpx (.loc (.ea (.ns b))),
   .two fun b => .cmpy (.loc (.ea (.ns b))),
   .two fun b => .leasp (.ns b),
   .one .exgXSP]

/-- Column C_ of the opcode map (30_encoding.md R69), rows _0 to _F. -/
def mapColumnC : List Entry :=
  [.two fun b => .ldx (.loc (.ea (.nx b))),
   .two fun b => .ldy (.loc (.ea (.nx b))),
   .two fun b => .ldsp (.loc (.ea (.nx b))),
   .two fun b => .sbca (.loc (.ea (.nx b))),
   .two fun b => .suba (.loc (.ea (.nx b))),
   .two fun b => .adca (.loc (.ea (.nx b))),
   .two fun b => .adda (.loc (.ea (.nx b))),
   .two fun b => .cmpa (.loc (.ea (.nx b))),
   .two fun b => .bita (.loc (.ea (.nx b))),
   .two fun b => .anda (.loc (.ea (.nx b))),
   .two fun b => .ora (.loc (.ea (.nx b))),
   .two fun b => .eora (.loc (.ea (.nx b))),
   .two fun b => .leax (.nx b),
   .two fun b => .leay (.ny b),
   .two fun b => .leasp (.nx b),
   .one .exgYSP]

/-- Column D_ of the opcode map (30_encoding.md R69), rows _0 to _F. -/
def mapColumnD : List Entry :=
  [.two fun b => .ldx (.loc (.ea (.ny b))),
   .two fun b => .ldy (.loc (.ea (.ny b))),
   .two fun b => .ldsp (.loc (.ea (.ny b))),
   .two fun b => .sbca (.loc (.ea (.ny b))),
   .two fun b => .suba (.loc (.ea (.ny b))),
   .two fun b => .adca (.loc (.ea (.ny b))),
   .two fun b => .adda (.loc (.ea (.ny b))),
   .two fun b => .cmpa (.loc (.ea (.ny b))),
   .two fun b => .bita (.loc (.ea (.ny b))),
   .two fun b => .anda (.loc (.ea (.ny b))),
   .two fun b => .ora (.loc (.ea (.ny b))),
   .two fun b => .eora (.loc (.ea (.ny b))),
   .two fun b => .leax (.ns b),
   .two fun b => .leay (.ns b),
   .two fun b => .leasp (.ny b),
   .one (.undefined 0xDF)]

/-- Column E_ of the opcode map (30_encoding.md R69), rows _0 to _F. -/
def mapColumnE : List Entry :=
  [.one (.undefined 0xE0),
   .two fun b => .sta (.ea (.ab b)),
   .two fun b => .sta (.ea (.ns b)),
   .two fun b => .sta (.ea (.nx b)),
   .one (.sta (.ea .ax)),
   .one (.sta (.auto .x .postInc)),
   .one (.sta (.auto .x .postDec)),
   .one (.sta (.auto .x .preInc)),
   .one (.sta (.auto .x .preDec)),
   .two fun b => .sta (.ea (.ny b)),
   .one (.sta (.ea .ay)),
   .one (.sta (.auto .y .postInc)),
   .one (.sta (.auto .y .postDec)),
   .one (.sta (.auto .y .preInc)),
   .one (.sta (.auto .y .preDec)),
   .one (.undefined 0xEF)]

/-- Column F_ of the opcode map (30_encoding.md R69), rows _0 to _F. -/
def mapColumnF : List Entry :=
  [.two fun b => .lda (.im b),
   .two fun b => .lda (.loc (.ea (.ab b))),
   .two fun b => .lda (.loc (.ea (.ns b))),
   .two fun b => .lda (.loc (.ea (.nx b))),
   .one (.lda (.loc (.ea .ax))),
   .one (.lda (.loc (.auto .x .postInc))),
   .one (.lda (.loc (.auto .x .postDec))),
   .one (.lda (.loc (.auto .x .preInc))),
   .one (.lda (.loc (.auto .x .preDec))),
   .two fun b => .lda (.loc (.ea (.ny b))),
   .one (.lda (.loc (.ea .ay))),
   .one (.lda (.loc (.auto .y .postInc))),
   .one (.lda (.loc (.auto .y .postDec))),
   .one (.lda (.loc (.auto .y .preInc))),
   .one (.lda (.loc (.auto .y .preDec))),
   .one (.undefined 0xFF)]

/-- The whole map, by column (high nibble of the operation code). -/
def opcodeMap : List (List Entry) :=
  [mapColumn0, mapColumn1, mapColumn2, mapColumn3, mapColumn4, mapColumn5, mapColumn6, mapColumn7,
   mapColumn8, mapColumn9, mapColumnA, mapColumnB, mapColumnC, mapColumnD, mapColumnE, mapColumnF]

/-- The cell of an operation code: column its high nibble, row its low nibble (R69). Every code has a cell; the defaults
are never reached. -/
def entryOf (op : Byte) : Entry :=
  (opcodeMap.getD (op.toNat / 16) []).getD (op.toNat % 16) (.one (.undefined op))

/-- The length of the instruction in bytes, from the operation code alone (R63). -/
def lengthOf (op : Byte) : Nat :=
  match entryOf op with
  | .one _ => 1
  | .two _ => 2

/-- Why a string of bytes is not an instruction followed by the rest. No operation code and no operand byte is refused
(R51, R62): an undefined code decodes to the undefined instruction. -/
inductive DecodeError where
  /-- There is no byte at all. -/
  | noBytes
  /-- A two-byte operation code stands last, with no operand byte after it. -/
  | noOperandByte
deriving DecidableEq, Repr

/-- Read one instruction from the front of a string of bytes (R51); the answer holds the bytes after it. -/
def decode (bytes : List Byte) : Except DecodeError (Instr × List Byte) :=
  match bytes with
  | [] => .error .noBytes
  | op :: rest =>
    match entryOf op with
    | .one i => .ok (i, rest)
    | .two k =>
      match rest with
      | [] => .error .noOperandByte
      | b :: rest' => .ok (k b, rest')

/-- The instruction read from bits numbered as spec/opcode_table.json numbers them: bits 7..0 are byte 0, bits 15..8
byte 1; bits from `nbits` up are 0. -/
def decodeTableWord (nbits w : Nat) : Option Instr :=
  let bits := w % 2 ^ nbits
  match decode [BitVec.ofNat 8 bits, BitVec.ofNat 8 (bits / 256)] with
  | .ok (i, _) => some i
  | .error _ => none

/-! ### The encoder -/

/-- The bytes of the six modes ab, ns, nx, ax, ny, ay of one instruction: columns 3_ to 8_ of the map, the row given by
the low nibble (tables of R108 to R110, R140, R141, R175, R177, R179, R181, R196, R206, R211, R213, R215, R217, R219). -/
def encodeColumns3to8 (row : Byte) : Ea → List Byte
  | .ab adr => [0x30 + row, adr]
  | .ns n => [0x40 + row, n]
  | .nx n => [0x50 + row, n]
  | .ax => [0x60 + row]
  | .ny n => [0x70 + row, n]
  | .ay => [0x80 + row]

/-- The bytes of the five modes im, ab, ns, nx, ny of one instruction: columns 9_ to D_ of the map (tables of R101 to
R103, R170 to R173, R190 to R194, R200, R201, R204). -/
def encodeColumns9toD (row : Byte) : Src → List Byte
  | .im data => [0x90 + row, data]
  | .loc (.ea (.ab adr)) => [0xA0 + row, adr]
  | .loc (.ea (.ns n)) => [0xB0 + row, n]
  | .loc (.ea (.nx n)) => [0xC0 + row, n]
  | .loc (.ea (.ny n)) => [0xD0 + row, n]
  | .loc (.ea .ax) | .loc (.ea .ay) | .loc (.auto _ _) => []

/-- The bytes of a memory operand of STA (column E_, base $E0) and LDA (column F_, base $F0): tables of R100, R107. -/
def encodeColumnsEF (base : Byte) : Loc → List Byte
  | .ea (.ab adr) => [base + 1, adr]
  | .ea (.ns n) => [base + 2, n]
  | .ea (.nx n) => [base + 3, n]
  | .ea .ax => [base + 4]
  | .auto .x .postInc => [base + 5]
  | .auto .x .postDec => [base + 6]
  | .auto .x .preInc => [base + 7]
  | .auto .x .preDec => [base + 8]
  | .ea (.ny n) => [base + 9, n]
  | .ea .ay => [base + 10]
  | .auto .y .postInc => [base + 11]
  | .auto .y .postDec => [base + 12]
  | .auto .y .preInc => [base + 13]
  | .auto .y .preDec => [base + 14]

/-- The bytes of a form that exists only in the modes `p` admits; no bytes otherwise. -/
def encodeIf (p : Bool) (bytes : List Byte) : List Byte :=
  if p then bytes else []

/-- The bytes of a well-formed instruction; no bytes for a form that has no encoding (30_encoding.md R60). -/
def encode : Instr → List Byte
  | .nop => [0x00]
  | .andcc data => [0x01, data]
  | .orcc data => [0x02, data]
  | .undefined code => encodeIf (undefinedCodes.contains code) [code]
  | .clra => [0x05]
  | .nega => [0x06]
  | .inca => [0x07]
  | .deca => [0x08]
  | .tsta => [0x09]
  | .coma => [0x0A]
  | .lsla => [0x0B]
  | .lsra => [0x0C]
  | .rola => [0x0D]
  | .rora => [0x0E]
  | .asra => [0x0F]
  | .psha => [0x10]
  | .pshx => [0x11]
  | .pshy => [0x12]
  | .pshcc => [0x13]
  | .pula => [0x14]
  | .pulx => [0x15]
  | .puly => [0x16]
  | .pulcc => [0x17]
  | .tfrAToCC => [0x18]
  | .tfrCCToA => [0x19]
  | .tfrXToY => [0x1A]
  | .tfrYToX => [0x1B]
  | .tfrXToSP => [0x1C]
  | .tfrSPToX => [0x1D]
  | .tfrYToSP => [0x1E]
  | .tfrSPToY => [0x1F]
  | .bsr offset => [0x20, offset]
  | .bra offset => [0x21, offset]
  | .bmi offset => [0x22, offset]
  | .bpl offset => [0x23, offset]
  | .beq offset => [0x24, offset]
  | .bne offset => [0x25, offset]
  | .bvs offset => [0x26, offset]
  | .bvc offset => [0x27, offset]
  | .bcs offset => [0x28, offset]
  | .bcc offset => [0x29, offset]
  | .bhi offset => [0x2A, offset]
  | .bls offset => [0x2B, offset]
  | .bgt offset => [0x2C, offset]
  | .bge offset => [0x2D, offset]
  | .ble offset => [0x2E, offset]
  | .blt offset => [0x2F, offset]
  | .stx m => encodeColumns3to8 0x00 m
  | .sty m => encodeColumns3to8 0x01 m
  | .stsp m => encodeColumns3to8 0x02 m
  | .jmp m => encodeIf m.isJumpMode (encodeColumns3to8 0x03 m)
  | .jsr m => encodeIf m.isJumpMode (encodeColumns3to8 0x04 m)
  | .clr m => encodeColumns3to8 0x05 m
  | .neg m => encodeColumns3to8 0x06 m
  | .inc m => encodeColumns3to8 0x07 m
  | .dec m => encodeColumns3to8 0x08 m
  | .tst m => encodeColumns3to8 0x09 m
  | .com m => encodeColumns3to8 0x0A m
  | .lsl m => encodeColumns3to8 0x0B m
  | .lsr m => encodeColumns3to8 0x0C m
  | .rol m => encodeColumns3to8 0x0D m
  | .ror m => encodeColumns3to8 0x0E m
  | .asr m => encodeColumns3to8 0x0F m
  | .rts => [0x43]
  | .rti => [0x44]
  | .ldx o => encodeColumns9toD 0x00 o
  | .ldy o => encodeColumns9toD 0x01 o
  | .ldsp o => encodeColumns9toD 0x02 o
  | .sbca o => encodeColumns9toD 0x03 o
  | .suba o => encodeColumns9toD 0x04 o
  | .adca o => encodeColumns9toD 0x05 o
  | .adda o => encodeColumns9toD 0x06 o
  | .cmpa o => encodeColumns9toD 0x07 o
  | .bita o => encodeColumns9toD 0x08 o
  | .anda o => encodeColumns9toD 0x09 o
  | .ora o => encodeColumns9toD 0x0A o
  | .eora o => encodeColumns9toD 0x0B o
  | .cmpx o => encodeIf (o.isImOr Ea.isAbOrNs) (encodeColumns9toD 0x0C o)
  | .cmpy o => encodeIf (o.isImOr Ea.isAbOrNs) (encodeColumns9toD 0x0D o)
  | .cmpsp o => encodeIf (o.isImOr Ea.isAb) (encodeColumns9toD 0x0E o)
  | .exgACC => [0x9F]
  | .exgXY => [0xAF]
  | .exgXSP => [0xBF]
  | .exgYSP => [0xCF]
  | .leax (.nx n) => [0xCC, n]
  | .leax (.ns n) => [0xDC, n]
  | .leax (.ab _) | .leax .ax | .leax (.ny _) | .leax .ay => []
  | .leay (.ny n) => [0xCD, n]
  | .leay (.ns n) => [0xDD, n]
  | .leay (.ab _) | .leay .ax | .leay (.nx _) | .leay .ay => []
  | .leasp (.ns n) => [0xBE, n]
  | .leasp (.nx n) => [0xCE, n]
  | .leasp (.ny n) => [0xDE, n]
  | .leasp (.ab _) | .leasp .ax | .leasp .ay => []
  | .sta l => encodeColumnsEF 0xE0 l
  | .lda (.im data) => [0xF0, data]
  | .lda (.loc l) => encodeColumnsEF 0xF0 l

end Sys2Proof
end

