-- ==== Sys2Proof/Machine/Fetch.lean ====
section
/-!
DEFINITION. Fetching an instruction (10_state.md R25, R27; 20_memory.md R38, R42): the operation code at PC, then the
operand byte if the code has one. Fetch reads the same memory and the same ports as any read (R33, D22).
-/

namespace Sys2Proof.Machine

/-- Read the byte at PC and step PC past it, modulo 256 (R25, R27). -/
def fetchByte (s : State) : Byte × State := (readValue s.pc s, (afterRead s.pc s).setPC (s.pc + 1))

/-- The instruction at PC, and the state with PC past its bytes (R25). A one-byte code, the undefined codes among them,
reads no second byte (D21). -/
def fetch (s : State) : Instr × State :=
  match entryOf (fetchByte s).1 with
  | .one i => (i, (fetchByte s).2)
  | .two k => (k (fetchByte (fetchByte s).2).1, (fetchByte (fetchByte s).2).2)

/-- Put a byte where a read of the address finds it next: in the memory cell, or before the bytes scheduled for the
port. -/
def placeByte (adr : Addr) (v : Byte) (s : State) : State :=
  match portOf adr with
  | none => s.setMem (s.mem.write adr.toNat v)
  | some p => s.setScheduled p (v :: s.scheduled p)

/-- The coming boundary with the interrupt line low and no Reset, so that it fetches. -/
def quietBoundary (s : State) : State := { s with boundary := .line false :: s.boundary.tail }

end Sys2Proof.Machine
end

