-- ==== Sys2Proof/Machine/Step.lean ====
section
/-!
DEFINITION. One step of the machine, from one instruction boundary to the next (10_state.md R25).
-/

namespace Sys2Proof.Machine

/-- The step (R25, R253, R260): a Reset, or the IRQ entry with the unfetched PC saved (R256), or one instruction fetched
and executed with PC past it. -/
def step (s : State) : Host.Outcome State Fault Refusal :=
  match s.boundaryEvent with
  | some .reset => .next (resetSequence s.passBoundary)
  | some e => .next (enterException e s.pc s.passBoundary)
  | none => exec (fetch s.passBoundary).1 (fetch s.passBoundary).2

/-- `s` with an instruction's two bytes (operation code in bits 7..0, operand byte in bits 15..8, bits from `nbits` up 0)
at PC and PC + 1, and nothing happening at the coming boundary, so that the next step runs it. It stands for loading a
program into the memory from outside the machine (log 9). -/
def State.withFetchWord (s : State) (nbits w : Nat) : State :=
  let bits := w % 2 ^ nbits
  placeByte s.pc (BitVec.ofNat 8 bits) (placeByte (s.pc + 1) (BitVec.ofNat 8 (bits / 256)) (quietBoundary s))

end Sys2Proof.Machine
end

