-- ==== Sys2Proof/Machine/Alu.lean ====
section
/-!
DEFINITION. The function table of the ALU (95_test_vectors.md L1.1; in scope by 00_scope.md R2 "as far as it fixes flag
values"): a second account of the results and flags of Flags.lean, from part II of the source. The instructions are
defined by their own rules, not by this table. The complement bars lost from notes (1) and (2) are restored as in
91_not_in_source.md N6; C of the subtraction function is the adder's carry (note 3), the inverse of the borrow the C flag
takes (90_conflicts.md C13). Log 25.
-/

namespace Sys2Proof.Machine

/-- The sixteen functions, f3 f2 f1 f0 = 0000 to 1111 in order. -/
inductive AluFunction where
  /-- 0000 U=0 -/
  | zero
  /-- 0001 U=FD16 -/
  | constFD
  /-- 0010 U=FE16 -/
  | constFE
  /-- 0011 U=FF16 -/
  | constFF
  /-- 0100 U=E -/
  | passE
  /-- 0101 U=D1k + Cin -/
  | complementD
  /-- 0110 U=D|E -/
  | or
  /-- 0111 U=D&E -/
  | and
  /-- 1000 U=D^E -/
  | xor
  /-- 1001 U=D + Cin -/
  | incD
  /-- 1010 U=D + FF16 -/
  | decD
  /-- 1011 U=D + E + Cin -/
  | add
  /-- 1100 U=D + E1k + Cin -/
  | sub
  /-- 1101 U=D<<1 (Cin) -/
  | shiftLeft
  /-- 1110 U=(Cin) D >> 1 -/
  | shiftRight
  /-- 1111 U=(d7) D >> 1 -/
  | shiftRightArith
deriving DecidableEq, Repr

/-- Note (2): V of the addition of D and F with sum U, `V = d7 & f7 & u7' | d7' & f7' & u7`. -/
def aluOverflow (d f u : Byte) : Bool :=
  (d.getLsbD 7 && f.getLsbD 7 && !u.getLsbD 7) || (!d.getLsbD 7 && !f.getLsbD 7 && u.getLsbD 7)

/-- D + F + Cin with the flags of notes (2) and (3). -/
def aluSum (d f : Byte) (cin : Bool) : Result :=
  let total := d.toNat + f.toNat + cin.toNat
  let u : Byte := BitVec.ofNat 8 total
  Result.ofByte u (aluOverflow d f u) (decide (total / 256 = 1))

/-- U and the ALU's four flag outputs. N is u7 and Z is "all bits of U are 0" in every row. -/
def alu (f : AluFunction) (d e : Byte) (cin : Bool) : Result :=
  match f with
  | .zero => Result.ofByte 0x00 false false
  | .constFD => Result.ofByte 0xFD false false
  | .constFE => Result.ofByte 0xFE false false
  | .constFF => Result.ofByte 0xFF false false
  | .passE => Result.ofByte e false false
  | .complementD => Result.ofByte (~~~d + BitVec.ofNat 8 cin.toNat) (d == 0x80) (d != 0)
  | .or => Result.ofByte (d ||| e) false false
  | .and => Result.ofByte (d &&& e) false false
  | .xor => Result.ofByte (d ^^^ e) false false
  | .incD => aluSum d 0 cin
  | .decD => aluSum d 0xFF false
  | .add => aluSum d e cin
  | .sub => aluSum d (~~~e) cin
  | .shiftLeft =>
    Result.ofByte ((d <<< 1) + BitVec.ofNat 8 cin.toNat) (d.getLsbD 7 ^^ d.getLsbD 6) (d.getLsbD 7)
  | .shiftRight =>
    Result.ofByte ((d >>> 1) + BitVec.ofNat 8 (128 * cin.toNat)) (cin ^^ d.getLsbD 7) (d.getLsbD 0)
  | .shiftRightArith => Result.ofByte (d.sshiftRight 1) false (d.getLsbD 0)

end Sys2Proof.Machine
end

