-- ==== Sys2Proof/Machine/AssemblerSyntax.lean ====
section
/-!
DEFINITION. The assembler's operand syntax (30_encoding.md R64): how each instruction is written, and the operation code
that a mnemonic and an operand form select (R60, R67).
-/

namespace Sys2Proof.Machine

/-- The operand forms of R64, without their values. Relative and absolute operands are both written `<Adr>`. -/
inductive OperandForm where
  | inherent
  /-- `R1,R2` of TFR and EXG -/
  | pair (r1 r2 : String)
  /-- `#<Data>` -/
  | data
  /-- `<Adr>` -/
  | adr
  /-- `n,SP` -/
  | ns
  /-- `n,X` and `n,Y` -/
  | offset (r : Index)
  /-- `A,X` and `A,Y` -/
  | acc (r : Index)
  /-- `,R+` and its three fellows -/
  | auto (r : Index) (k : Auto)
deriving DecidableEq, Repr

end Sys2Proof.Machine

namespace Sys2Proof

open Machine

/-- How a memory operand is written. -/
def Ea.form : Ea → OperandForm
  | .ab _ => .adr
  | .ns _ => .ns
  | .nx _ => .offset .x
  | .ax => .acc .x
  | .ny _ => .offset .y
  | .ay => .acc .y

def Loc.form : Loc → OperandForm
  | .ea m => m.form
  | .auto r k => .auto r k

def Src.form : Src → OperandForm
  | .im _ => .data
  | .loc l => l.form

end Sys2Proof

namespace Sys2Proof.Machine

/-- The mnemonic and operand form an instruction is written with: TFR and EXG carry their register pair as the operand (R64), a
branch is written with its target. An undefined code has none. -/
def assemblyForm (i : Instr) : Option (String × OperandForm) :=
  match i with
  | .nop => some ("NOP", .inherent)
  | .andcc _ => some ("ANDCC", .data)
  | .orcc _ => some ("ORCC", .data)
  | .undefined _ => none
  | .clra => some ("CLRA", .inherent)
  | .nega => some ("NEGA", .inherent)
  | .inca => some ("INCA", .inherent)
  | .deca => some ("DECA", .inherent)
  | .tsta => some ("TSTA", .inherent)
  | .coma => some ("COMA", .inherent)
  | .lsla => some ("LSLA", .inherent)
  | .lsra => some ("LSRA", .inherent)
  | .rola => some ("ROLA", .inherent)
  | .rora => some ("RORA", .inherent)
  | .asra => some ("ASRA", .inherent)
  | .psha => some ("PSHA", .inherent)
  | .pshx => some ("PSHX", .inherent)
  | .pshy => some ("PSHY", .inherent)
  | .pshcc => some ("PSHCC", .inherent)
  | .pula => some ("PULA", .inherent)
  | .pulx => some ("PULX", .inherent)
  | .puly => some ("PULY", .inherent)
  | .pulcc => some ("PULCC", .inherent)
  | .tfrAToCC => some ("TFR", .pair "A" "CC")
  | .tfrCCToA => some ("TFR", .pair "CC" "A")
  | .tfrXToY => some ("TFR", .pair "X" "Y")
  | .tfrYToX => some ("TFR", .pair "Y" "X")
  | .tfrXToSP => some ("TFR", .pair "X" "SP")
  | .tfrSPToX => some ("TFR", .pair "SP" "X")
  | .tfrYToSP => some ("TFR", .pair "Y" "SP")
  | .tfrSPToY => some ("TFR", .pair "SP" "Y")
  | .bsr _ => some ("BSR", .adr)
  | .bra _ => some ("BRA", .adr)
  | .bmi _ => some ("BMI", .adr)
  | .bpl _ => some ("BPL", .adr)
  | .beq _ => some ("BEQ", .adr)
  | .bne _ => some ("BNE", .adr)
  | .bvs _ => some ("BVS", .adr)
  | .bvc _ => some ("BVC", .adr)
  | .bcs _ => some ("BCS", .adr)
  | .bcc _ => some ("BCC", .adr)
  | .bhi _ => some ("BHI", .adr)
  | .bls _ => some ("BLS", .adr)
  | .bgt _ => some ("BGT", .adr)
  | .bge _ => some ("BGE", .adr)
  | .ble _ => some ("BLE", .adr)
  | .blt _ => some ("BLT", .adr)
  | .stx m => some ("STX", m.form)
  | .sty m => some ("STY", m.form)
  | .stsp m => some ("STSP", m.form)
  | .jmp m => some ("JMP", m.form)
  | .jsr m => some ("JSR", m.form)
  | .clr m => some ("CLR", m.form)
  | .neg m => some ("NEG", m.form)
  | .inc m => some ("INC", m.form)
  | .dec m => some ("DEC", m.form)
  | .tst m => some ("TST", m.form)
  | .com m => some ("COM", m.form)
  | .lsl m => some ("LSL", m.form)
  | .lsr m => some ("LSR", m.form)
  | .rol m => some ("ROL", m.form)
  | .ror m => some ("ROR", m.form)
  | .asr m => some ("ASR", m.form)
  | .rts => some ("RTS", .inherent)
  | .rti => some ("RTI", .inherent)
  | .ldx o => some ("LDX", o.form)
  | .ldy o => some ("LDY", o.form)
  | .ldsp o => some ("LDSP", o.form)
  | .sbca o => some ("SBCA", o.form)
  | .suba o => some ("SUBA", o.form)
  | .adca o => some ("ADCA", o.form)
  | .adda o => some ("ADDA", o.form)
  | .cmpa o => some ("CMPA", o.form)
  | .bita o => some ("BITA", o.form)
  | .anda o => some ("ANDA", o.form)
  | .ora o => some ("ORA", o.form)
  | .eora o => some ("EORA", o.form)
  | .cmpx o => some ("CMPX", o.form)
  | .cmpy o => some ("CMPY", o.form)
  | .cmpsp o => some ("CMPSP", o.form)
  | .exgACC => some ("EXG", .pair "A" "CC")
  | .exgXY => some ("EXG", .pair "X" "Y")
  | .leasp m => some ("LEASP", m.form)
  | .exgXSP => some ("EXG", .pair "X" "SP")
  | .leax m => some ("LEAX", m.form)
  | .leay m => some ("LEAY", m.form)
  | .exgYSP => some ("EXG", .pair "Y" "SP")
  | .sta l => some ("STA", l.form)
  | .lda o => some ("LDA", o.form)

/-- An alternative mnemonic and the mnemonic whose operation codes it names (R67). -/
def alternativeMnemonics : List (String × String) :=
  [("BHS", "BCC"), ("BLO", "BCS"), ("ASL", "LSL"), ("ASLA", "LSLA"), ("PULC", "PULCC")]

/-- The mnemonic of the opcode map. -/
def mapMnemonic (name : String) : String :=
  match alternativeMnemonics.find? (fun p => p.1 == name) with
  | some p => p.2
  | none => name

/-- How the instruction of a cell of the map is written. -/
def Entry.assemblyForm (e : Entry) : Option (String × OperandForm) :=
  match e with
  | .one i => Machine.assemblyForm i
  | .two k => Machine.assemblyForm (k 0)

/-- The operation code that a mnemonic and an operand form select; none if the pair "has no encoding and must be refused
by an assembler" (R60). -/
def codeOf (mnemonic : String) (f : OperandForm) : Option Byte :=
  (List.range 256).findSome? fun n =>
    match Entry.assemblyForm (entryOf (BitVec.ofNat 8 n)) with
    | some (m, g) => if g = f ∧ m = mapMnemonic mnemonic then some (BitVec.ofNat 8 n) else none
    | none => none

end Sys2Proof.Machine
end

