-- ==== Sys2Proof/Machine/Assembler.lean ====
section
/-!
DEFINITION. The assembler as far as the source fixes it (30_encoding.md R64 to R68): number prefixes, the five
directives, alternative mnemonics, branch operands, and the memory image a program gives (the open parameter IMAGE,
92_eei_decisions.md D6). Lines are abstract: the source does not give the line grammar (91_not_in_source.md N16). Every
value, symbol and address is a byte: "A value must fit 8 bits" (R65). What the source leaves open here is listed in log 29.
-/

namespace Sys2Proof.Machine

/-! ### Numbers (R65) -/

/-- A digit's value. DESIGN CHOICE, log 29: the hexadecimal digits are accepted in both cases, since case sensitivity is
not in the source (N16). -/
def digitOf (base : Nat) (c : Char) : Option Nat :=
  let n := c.toNat
  let d := if 48 ≤ n ∧ n ≤ 57 then n - 48 else if 65 ≤ n ∧ n ≤ 70 then n - 55 else if 97 ≤ n ∧ n ≤ 102 then n - 87 else base
  if d < base then some d else none

/-- The digits read from the left in a base; none if one is no digit. -/
def digitsOf (base acc : Nat) (cs : List Char) : Option Nat :=
  match cs with
  | [] => some acc
  | c :: rest =>
    match digitOf base c with
    | none => none
    | some d => digitsOf base (acc * base + d) rest

/-- A number without its sign: prefix `$` hexadecimal, `%` binary, none decimal (R65). -/
def magnitudeOf (cs : List Char) : Option Nat :=
  match cs with
  | [] => none
  | ['$'] | ['%'] => none
  | '$' :: ds => digitsOf 16 0 ds
  | '%' :: ds => digitsOf 2 0 ds
  | ds => digitsOf 10 0 ds

/-- A number as written, "med eller utan tecken" (R65). DESIGN CHOICE, log 29: the sign is `-`, before the prefix. -/
def numberOf (text : String) : Option Int :=
  match text.toList with
  | '-' :: cs => (magnitudeOf cs).map fun n => -(n : Int)
  | cs => (magnitudeOf cs).map fun n => (n : Int)

/-! ### Branch operands (R68) -/

/-- `Offset = u8(Adr - (a + 2))` for a branch at address `a` to `target`. -/
def branchOffset (a target : Addr) : Byte := target - (a + 2)

/-! ### Programs -/

/-- `<Val>`: a constant as written, or a symbol (R64). -/
inductive Value where
  | number (text : String)
  | symbol (name : String)
deriving DecidableEq, Repr

/-- An operand as written (R64): the forms of `OperandForm` with their values. -/
inductive OperandText where
  | inherent
  | pair (r1 r2 : String)
  | data (v : Value)
  | adr (v : Value)
  | ns (v : Value)
  | offset (v : Value) (r : Index)
  | acc (r : Index)
  | auto (r : Index) (k : Auto)
deriving DecidableEq, Repr

/-- What stands on a line, after an optional label: an instruction or one of the directives (R66). -/
inductive Statement where
  | org (v : Value)
  | equ (v : Value)
  | fcb (vs : List Value)
  | fcs (text : String)
  | rmb (v : Value)
  | instruction (mnemonic : String) (operand : OperandText)
deriving DecidableEq, Repr

structure Line where
  label : Option String
  statement : Statement
deriving DecidableEq, Repr

inductive AssemblyError where
  /-- A symbol that is not defined; for ORG ("inga framåtreferenser", R66) and for EQU and RMB (DESIGN CHOICE, log 29) one
  that is not defined on an earlier line. -/
  | undefinedSymbol (name : String)
  /-- A symbol defined twice. DESIGN CHOICE, log 29: the source has no error rules (N16). -/
  | symbolDefinedTwice (name : String)
  /-- The text is no number (R65). -/
  | notANumber (text : String)
  /-- "A value must fit 8 bits" (R65). -/
  | doesNotFit (n : Int)
  /-- EQU needs a symbol (R66). -/
  | equWithoutSymbol
  /-- FCS takes ASCII characters (R66). -/
  | notAscii (c : Char)
  /-- The mnemonic has no such operand form (R60). -/
  | noSuchInstruction (mnemonic : String)
deriving DecidableEq, Repr

abbrev Symbols := List (String × Byte)

def lookupSymbol (table : Symbols) (name : String) : Option Byte :=
  match table with
  | [] => none
  | (k, v) :: rest => if k = name then some v else lookupSymbol rest name

/-- Define a symbol, which must be new (log 29). -/
def defineSymbol (table : Symbols) (name : String) (v : Byte) : Except AssemblyError Symbols :=
  match lookupSymbol table name with
  | some _ => .error (.symbolDefinedTwice name)
  | none => .ok ((name, v) :: table)

/-- A value as a byte, "with or without sign": `-1`, `$FF` and `255` are the same byte (R65). -/
def valueOf (table : Symbols) (v : Value) : Except AssemblyError Byte :=
  match v with
  | .number text =>
    match numberOf text with
    | none => .error (.notANumber text)
    | some n => if -128 ≤ n ∧ n ≤ 255 then .ok (BitVec.ofInt 8 n) else .error (.doesNotFit n)
  | .symbol name =>
    match lookupSymbol table name with
    | some b => .ok b
    | none => .error (.undefinedSymbol name)

/-- The codes of ASCII characters, one byte each, with no terminator (R66). -/
def asciiOf (cs : List Char) : Except AssemblyError (List Byte) :=
  match cs with
  | [] => .ok []
  | c :: rest => if c.toNat < 128 then (asciiOf rest).map (BitVec.ofNat 8 c.toNat :: ·) else .error (.notAscii c)

/-- The form of an operand. -/
def OperandText.form (o : OperandText) : OperandForm :=
  match o with
  | .inherent => .inherent
  | .pair r1 r2 => .pair r1 r2
  | .data _ => .data
  | .adr _ => .adr
  | .ns _ => .ns
  | .offset _ r => .offset r
  | .acc r => .acc r
  | .auto r k => .auto r k

/-- The value an operand holds, which is the operand byte or, for a branch, its target. -/
def OperandText.value? (o : OperandText) : Option Value :=
  match o with
  | .data v | .adr v | .ns v | .offset v _ => some v
  | .inherent | .pair _ _ | .acc _ | .auto _ _ => none

/-- The operation code is a relative branch: its operand byte is an offset (R55). -/
def isBranchCode (op : Byte) : Bool := op.toNat / 16 == 2

/-- The bytes of an instruction at an address: the operation code its mnemonic and operand form select, then the operand
byte; a branch stores the offset of its target (R64, R68). -/
def instructionBytes (table : Symbols) (at' : Addr) (mnemonic : String) (o : OperandText) :
    Except AssemblyError (List Byte) :=
  match codeOf mnemonic o.form with
  | none => .error (.noSuchInstruction mnemonic)
  | some op =>
    match o.value? with
    | none => .ok [op]
    | some v => (valueOf table v).map fun b => [op, if isBranchCode op then branchOffset at' b else b]

/-- How many bytes a statement takes; ORG and EQU take none. -/
def sizeOfStatement (table : Symbols) (st : Statement) : Except AssemblyError Nat :=
  match st with
  | .org _ | .equ _ => .ok 0
  | .fcb vs => .ok vs.length
  | .fcs text => .ok text.toList.length
  | .rmb v => (valueOf table v).map (·.toNat)
  | .instruction _ o => .ok (if o.value?.isSome then 2 else 1)

/-- Where the next line stands, from where this one stands. DESIGN CHOICE, log 29: past $FF the address goes on at $00, as
every address of the machine does (R39). -/
def addressAfter (table : Symbols) (at' : Addr) (st : Statement) : Except AssemblyError Addr :=
  match st with
  | .org v => valueOf table v
  | st => (sizeOfStatement table st).map fun n => at' + BitVec.ofNat 8 n

/-- The value a label on a line stands for, where the line stands at `at'` and the next one at `next`. EQU, FCB, FCS and
RMB: R66. DESIGN CHOICE, log 29: on an instruction, its address; on ORG, the new address. -/
def labelValue (table : Symbols) (at' next : Addr) (st : Statement) : Except AssemblyError Byte :=
  match st with
  | .equ v => valueOf table v
  | .org _ => .ok next
  | .fcb _ | .fcs _ | .rmb _ | .instruction _ _ => .ok at'

/-- The symbols after a line. -/
def symbolsAfter (table : Symbols) (at' next : Addr) (l : Line) : Except AssemblyError Symbols :=
  match l.label, l.statement with
  | none, .equ _ => .error .equWithoutSymbol
  | none, _ => .ok table
  | some name, st =>
    match labelValue table at' next st with
    | .error e => .error e
    | .ok v => defineSymbol table name v

/-- First pass: the value of every symbol. -/
def collectSymbols (table : Symbols) (at' : Addr) (lines : List Line) : Except AssemblyError Symbols :=
  match lines with
  | [] => .ok table
  | l :: rest =>
    match addressAfter table at' l.statement with
    | .error e => .error e
    | .ok next =>
      match symbolsAfter table at' next l with
      | .error e => .error e
      | .ok table' => collectSymbols table' next rest

/-- The bytes of a statement that stands at an address; none for a cell that RMB reserves, whose content "är odefinierat"
(R66). -/
def bytesOf (table : Symbols) (at' : Addr) (st : Statement) : Except AssemblyError (List (Option Byte)) :=
  match st with
  | .org _ | .equ _ => .ok []
  | .rmb v => (valueOf table v).map fun n => List.replicate n.toNat none
  | .fcb vs => (vs.mapM (valueOf table)).map (·.map some)
  | .fcs text => (asciiOf text.toList).map (·.map some)
  | .instruction mnemonic o => (instructionBytes table at' mnemonic o).map (·.map some)

/-- Put the bytes of a statement at increasing addresses, modulo 256; a reserved cell becomes unspecified. DESIGN CHOICE,
log 29: a later statement replaces what an earlier one put in a cell, and what falls on a port address is in no cell. -/
def placeBytes (m : Memory) (at' : Addr) (bytes : List (Option Byte)) : Memory :=
  match bytes with
  | [] => m
  | b :: rest =>
    let cell := at'.toNat
    placeBytes
      (if isPortNumber cell then m
        else match b with
          | some v => m.write cell v
          | none => m.erase cell)
      (at' + 1) rest

/-- Second pass: the memory image. -/
def placeLines (table : Symbols) (m : Memory) (at' : Addr) (lines : List Line) : Except AssemblyError Memory :=
  match lines with
  | [] => .ok m
  | l :: rest =>
    match bytesOf table at' l.statement, addressAfter table at' l.statement with
    | .ok bytes, .ok next => placeLines table (placeBytes m at' bytes) next rest
    | .error e, _ => .error e
    | _, .error e => .error e

/-- Where the first line stands before any ORG. DESIGN CHOICE, log 29: at $00; the source is silent (R66, N16). -/
def firstAddress : Addr := 0x00

/-- The memory image of a program: a choice of IMAGE. -/
def assemble (lines : List Line) : Except AssemblyError Memory :=
  match collectSymbols [] firstAddress lines with
  | .error e => .error e
  | .ok table => placeLines table [] firstAddress lines

/-- The machine right after reset with a memory image loaded: PC is the content of cell $FF (70_reset_and_hazards.md
R280); everything else as in `State.reset`. -/
def State.resetWith (image : Memory) : State := { State.reset with mem := image, pc := image.read 0xFF }

end Sys2Proof.Machine
end

