-- ==== Sys2Proof/Machine/Timing.lean ====
section
/-!
DEFINITION. The clock cycles the source prints for each operation code (30_encoding.md R69, 70_reset_and_hazards.md R284).
An annotation: nothing in the machine reads or counts it (60_exceptions.md R266; log 17).
-/

namespace Sys2Proof.Machine

/-- Cycles of an instruction with a source operand: immediate, or from memory. -/
def srcCycles (immediate memory : Nat) (o : Src) : Nat :=
  match o with
  | .im _ => immediate
  | .loc _ => memory

/-- Cycles of a jump: absolute, or indexed. -/
def jumpCycles (absolute indexed : Nat) (m : Ea) : Nat :=
  match m with
  | .ab _ => absolute
  | .ns _ | .nx _ | .ax | .ny _ | .ay => indexed

/-- Cycles of the memory operands of LDA and STA. -/
def locCycles (l : Loc) : Nat :=
  match l with
  | .ea _ => 3
  | .auto _ _ => 4

/-- The source's `~` column; none for an undefined code, which has no cycle number. -/
def Instr.cycles (i : Instr) : Option Nat :=
  match i with
  | .undefined _ => none
  | .nop | .tsta | .rts | .tfrAToCC | .tfrCCToA | .tfrXToY | .tfrYToX | .tfrXToSP | .tfrSPToX | .tfrYToSP
  | .tfrSPToY => some 2
  | .clra | .nega | .inca | .deca | .coma | .lsla | .lsra | .rola | .rora | .asra | .psha | .pshx | .pshy | .pshcc
  | .pula | .pulx | .puly | .pulcc | .clr _ | .tst _ | .stx _ | .sty _ | .stsp _ => some 3
  | .andcc _ | .orcc _ | .neg _ | .inc _ | .dec _ | .com _ | .lsl _ | .lsr _ | .rol _ | .ror _ | .asr _ | .leax _
  | .leay _ | .leasp _ | .exgACC | .exgXY | .exgXSP | .exgYSP | .bra _ | .bmi _ | .bpl _ | .beq _ | .bne _ | .bvs _
  | .bvc _ | .bcs _ | .bcc _ | .bhi _ | .bls _ | .bgt _ | .bge _ | .ble _ | .blt _ => some 4
  | .bsr _ => some 5
  | .rti => some 6
  | .jmp m => some (jumpCycles 2 4 m)
  | .jsr m => some (jumpCycles 4 5 m)
  | .ldx o | .ldy o | .ldsp o => some (srcCycles 2 3 o)
  | .cmpa o | .cmpx o | .cmpy o | .cmpsp o | .bita o => some (srcCycles 3 4 o)
  | .adda o | .adca o | .suba o | .sbca o | .anda o | .ora o | .eora o => some (srcCycles 4 5 o)
  | .sta l => some (locCycles l)
  | .lda (.im _) => some 2
  | .lda (.loc l) => some (locCycles l)

/-- Cycles of the step from a state: the instruction's, or the unstated number of the entry or reset (ENTRY_CYCLES). -/
def stepCycles (s : State) : Nat :=
  match s.boundaryEvent with
  | some e => Config.entryCycles e
  | none => (Instr.cycles (fetch s.passBoundary).1).getD (Config.entryCycles .trap)

end Sys2Proof.Machine
end

