-- ==== Sys2Proof/Safety.lean ====
section
/-!
DEFINITION. What counts as a safe run and as the end of a run, in the terms the claims use.
-/

namespace Sys2Proof.Machine

/-- A run that never stops: the processor cannot stop (70_reset_and_hazards.md R285), so every run should be safe. -/
def State.Safe (s : State) : Prop := ∀ k, ∃ t, Sys2Proof.core.run k s = .next t

/-- The instruction at PC, read from memory, is `BRA *` or a JMP to its own address (R285, D9). -/
def State.selfJump (s : State) : Bool :=
  match portOf s.pc, entryOf (s.peek s.pc) with
  | none, .one (.jmp m) => eaOf m s == s.pc
  | none, .two k =>
    match portOf (s.pc + 1), k (s.peek (s.pc + 1)) with
    | none, .bra offset => s.pc + 2 + offset == s.pc
    | none, .jmp m => eaOf m s == s.pc
    | _, _ => false
  | _, _ => false

/-- The interrupt line is low at every coming boundary, scheduled or not. -/
def State.lineStaysLow (s : State) : Prop :=
  (∀ b ∈ s.boundary, b = .line false) ∧ ∀ k, s.draws + s.boundary.length ≤ k → Config.irqLine k = false

/-- "The run has ended": PC is at a self-jump and either I = 1 or the interrupt line stays low (R285, D9); no Reset is
coming. -/
def State.runEnded (s : State) : Prop :=
  s.selfJump = true ∧ .reset ∉ s.boundary ∧ (s.flagI = true ∨ s.lineStaysLow)

/-- Two states with the same registers, flags, memory and port events: they differ at most in the environment's coming
inputs and in the count of free values. -/
def State.sameMachine (s t : State) : Prop :=
  t.a = s.a ∧ t.x = s.x ∧ t.y = s.y ∧ t.sp = s.sp ∧ t.pc = s.pc ∧ t.flagI = s.flagI ∧ t.flagN = s.flagN ∧
    t.flagZ = s.flagZ ∧ t.flagV = s.flagV ∧ t.flagC = s.flagC ∧ t.mem = s.mem ∧ t.events = s.events

end Sys2Proof.Machine
end

