-- ==== Sys2Proof/Certificates/Slice0/Obligations.lean ====
section
/-!
DEFINITION. The statements for the provers. Each `Obligations.<Name>` cites the rules of spec/ it formalises; the words it
is written in (encoding tables, frames, accesses) stand first, under `Sys2Proof.Claims`.
-/

namespace Sys2Proof.Claims

open Sys2Proof.Machine

/-! ### Encodings -/

/-- The bytes decode to the instruction, whatever follows them, and the source prints this cycle count for it. -/
def Encoded (bytes : List Byte) (i : Instr) (cycles : Nat) : Prop :=
  (∀ rest, decode (bytes ++ rest) = .ok (i, rest)) ∧ Instr.cycles i = some cycles

/-- The rows `ab ns nx ax ny ay` of an encoding table with operation codes $3r, $4r, $5r, $6r, $7r, $8r. -/
def sixModeBytes (r : Byte) : Ea → List Byte
  | .ab adr => [0x30 + r, adr]
  | .ns n => [0x40 + r, n]
  | .nx n => [0x50 + r, n]
  | .ax => [0x60 + r]
  | .ny n => [0x70 + r, n]
  | .ay => [0x80 + r]

/-- The rows `im ab ns nx ny` of an encoding table with operation codes $9r, $Ar, $Br, $Cr, $Dr. -/
def fiveModeBytes (r : Byte) : Src → List Byte
  | .im data => [0x90 + r, data]
  | .loc (.ea (.ab adr)) => [0xA0 + r, adr]
  | .loc (.ea (.ns n)) => [0xB0 + r, n]
  | .loc (.ea (.nx n)) => [0xC0 + r, n]
  | .loc (.ea (.ny n)) => [0xD0 + r, n]
  | .loc (.ea .ax) | .loc (.ea .ay) | .loc (.auto _ _) => []

/-- The fourteen memory rows of R100 and R107, operation codes from `base` + 1 to `base` + $E. -/
def locBytes (base : Byte) : Loc → List Byte
  | .ea (.ab adr) => [base + 0x1, adr]
  | .ea (.ns n) => [base + 0x2, n]
  | .ea (.nx n) => [base + 0x3, n]
  | .ea .ax => [base + 0x4]
  | .auto .x .postInc => [base + 0x5]
  | .auto .x .postDec => [base + 0x6]
  | .auto .x .preInc => [base + 0x7]
  | .auto .x .preDec => [base + 0x8]
  | .ea (.ny n) => [base + 0x9, n]
  | .ea .ay => [base + 0xA]
  | .auto .y .postInc => [base + 0xB]
  | .auto .y .postDec => [base + 0xC]
  | .auto .y .preInc => [base + 0xD]
  | .auto .y .preDec => [base + 0xE]

/-- The encoding table of R100. -/
def ldaBytes : Src → List Byte
  | .im data => [0xF0, data]
  | .loc l => locBytes 0xF0 l

/-- Cycles of a table row: one number for the immediate row, one for the memory rows. -/
def imOrMemory (im mem : Nat) : Src → Nat
  | .im _ => im
  | .loc _ => mem

/-- Cycles of a memory row of R100 and R107: 4 in the automatic modes, 3 in the others. -/
def threeOrAuto : Loc → Nat
  | .ea _ => 3
  | .auto _ _ => 4

/-- Cycles of R100. -/
def ldaCycles : Src → Nat
  | .im _ => 2
  | .loc l => threeOrAuto l

/-- Cycles of a jump: one number for the absolute row, one for the others. -/
def abOrIndexed (ab indexed : Nat) : Ea → Nat
  | .ab _ => ab
  | .ns _ | .nx _ | .ax | .ny _ | .ay => indexed

/-! ### Registers, flags and frames -/

/-- A, X, Y, SP, PC. -/
def regs (s : State) : Byte × Byte × Byte × Byte × Byte := (s.a, s.x, s.y, s.sp, s.pc)

/-- I, N, Z, V, C. -/
def flags (s : State) : Bool × Bool × Bool × Bool × Bool := (s.flagI, s.flagN, s.flagZ, s.flagV, s.flagC)

/-- Every memory cell reads as before. -/
def cellsSame (s t : State) : Prop := ∀ adr, t.peek adr = s.peek adr

/-- No input of the environment is used up and no free value drawn. -/
def inputsSame (s t : State) : Prop :=
  t.boundary = s.boundary ∧ t.inFB = s.inFB ∧ t.inFC = s.inFC ∧ t.draws = s.draws

/-- The input of one port read is used up: the scheduled byte if there is one; a free value is counted. -/
def tookInput (p : Port) (s t : State) : Prop :=
  t.boundary = s.boundary ∧ (∀ q, t.scheduled q = if q = p then (s.scheduled q).tail else s.scheduled q) ∧
    t.draws = s.draws + 1

/-- No memory cell and no port is accessed. -/
def noAccess (s t : State) : Prop := cellsSame s t ∧ inputsSame s t ∧ t.events = s.events

/-- One read, of `adr`: nothing changes, unless it is a port, whose input event is recorded. -/
def didRead (adr : Addr) (s t : State) : Prop :=
  cellsSame s t ∧
    match portOf adr with
    | none => inputsSame s t ∧ t.events = s.events
    | some p => tookInput p s t ∧ t.events = s.events ++ [.input p (readValue adr s)]

/-- One write, of `v` to `adr`: every other cell reads as before; the cell holds `v`, or, if `adr` is a port, an output
event is recorded and no cell changes. -/
def didWrite (adr : Addr) (v : Byte) (s t : State) : Prop :=
  (∀ b, b ≠ adr → t.peek b = s.peek b) ∧ inputsSame s t ∧
    match portOf adr with
    | none => t.peek adr = v ∧ t.events = s.events
    | some p => t.peek adr = s.peek adr ∧ t.events = s.events ++ [.output p v]

/-- One read of `adr`, then one write of `v` to the same `adr`. -/
def didRewrite (adr : Addr) (v : Byte) (s t : State) : Prop :=
  (∀ b, b ≠ adr → t.peek b = s.peek b) ∧
    match portOf adr with
    | none => t.peek adr = v ∧ inputsSame s t ∧ t.events = s.events
    | some p => t.peek adr = s.peek adr ∧ tookInput p s t ∧
        t.events = s.events ++ [.input p (readValue adr s), .output p v]

/-- The access of a source operand: none for the immediate mode, one read for a memory operand. -/
def didReadSrc (o : Src) (s t : State) : Prop :=
  match o with
  | .im _ => noAccess s t
  | .loc l => didRead (locAddress l s) s t

/-- What a cell holds after writes in order: the last byte written to it, else what it held. -/
def lastWritten (writes : List (Addr × Byte)) (adr : Addr) (old : Byte) : Byte :=
  writes.foldl (fun held w => if w.1 = adr then w.2 else held) old

/-- The output events of writes in order. -/
def outputsOf (writes : List (Addr × Byte)) : List PortEvent :=
  writes.filterMap fun w => (portOf w.1).map fun p => .output p w.2

/-- Writes in order: each cell holds what was last written to it or reads as before; the writes to ports are recorded in
order and store nothing. -/
def didWrites (writes : List (Addr × Byte)) (s t : State) : Prop :=
  (∀ adr, t.peek adr = if portOf adr = none then lastWritten writes adr (s.peek adr) else s.peek adr) ∧
    t.events = s.events ++ outputsOf writes ∧ t.boundary = s.boundary ∧ t.inFB = s.inFB ∧ t.inFC = s.inFC

/-- The values of reads in order, and the state after them. -/
def readMany : List Addr → State → List Byte × State
  | [], s => ([], s)
  | adr :: rest, s => (readValue adr s :: (readMany rest (afterRead adr s)).1, (readMany rest (afterRead adr s)).2)

/-- X or Y after the automatic update of an operand (30_encoding.md R59): one up or one down, modulo 256. -/
def indexAfter (l : Loc) (r : Index) (s : State) : Byte :=
  match l with
  | .ea _ => s.index r
  | .auto q k =>
    if q = r then
      match k with
      | .postInc | .preInc => s.index r + 1
      | .postDec | .preDec => s.index r - 1
    else s.index r

/-- `indexAfter` for a source operand. -/
def indexAfterSrc (o : Src) (r : Index) (s : State) : Byte :=
  match o with
  | .im _ => s.index r
  | .loc l => indexAfter l r s

/-- The byte is CC as a byte (10_state.md R15): I in bit 4, N, Z, V, C in bits 3 to 0; bits 7..5 are open (R18). -/
def isCC (c : Byte) (s : State) : Prop :=
  c.getLsbD 4 = s.flagI ∧ c.getLsbD 3 = s.flagN ∧ c.getLsbD 2 = s.flagZ ∧ c.getLsbD 1 = s.flagV ∧
    c.getLsbD 0 = s.flagC

/-- The five flags that a byte written to CC gives (10_state.md R19). -/
def flagsOf (v : Byte) : Bool × Bool × Bool × Bool × Bool :=
  (v.getLsbD 4, v.getLsbD 3, v.getLsbD 2, v.getLsbD 1, v.getLsbD 0)

/-- The level of the interrupt line at the coming boundary; false stands for a boundary at which Reset is asserted. -/
def lineHigh (s : State) : Bool :=
  match s.boundary with
  | .line level :: _ => level
  | .reset :: _ => false
  | [] => Config.irqLine s.draws

/-- The coming boundary fetches an instruction: no Reset, and the line is low or I = 1 (60_exceptions.md R253). -/
def fetches (s : State) : Prop := s.boundary.head? ≠ some .reset ∧ (s.flagI = true ∨ lineHigh s = false)

/-- The memory holds the bytes from `adr` upward, modulo 256, none of them at a port address. -/
def holdsAt (s : State) (adr : Addr) : List Byte → Prop
  | [] => True
  | b :: rest => portOf adr = none ∧ s.peek adr = b ∧ holdsAt s (adr + 1) rest

/-- The five writes of the exception entry, in order (60_exceptions.md R254, R255). -/
def frame (ret c : Byte) (s : State) : List (Addr × Byte) :=
  [(s.sp - 1, ret), (s.sp - 2, s.y), (s.sp - 3, s.x), (s.sp - 4, s.a), (s.sp - 5, c)]

/-- None of the five cells of a frame below SP is a port address. -/
def frameClearOfPorts (s : State) : Prop :=
  portOf (s.sp - 1) = none ∧ portOf (s.sp - 2) = none ∧ portOf (s.sp - 3) = none ∧ portOf (s.sp - 4) = none ∧
    portOf (s.sp - 5) = none

/-! ### Results -/

/-- N and Z follow the byte (00_scope.md R8). -/
def nz (r : Byte) : Bool × Bool := (r.getLsbD 7, decide (r.toNat = 0))

/-- The integer is outside -128..127. -/
def overflows (n : Int) : Bool := decide (n < -128 ∨ 127 < n)

/-- The byte the sum modulo 256 leaves, and the flags I, N, Z, V, C (00_scope.md R6). -/
def sumByte (a b : Byte) (cin : Bool) : Byte := BitVec.ofNat 8 ((a.toNat + b.toNat + cin.toNat) % 256)

def sumFlags (i : Bool) (a b : Byte) (cin : Bool) : Bool × Bool × Bool × Bool × Bool :=
  (i, (nz (sumByte a b cin)).1, (nz (sumByte a b cin)).2, overflows (a.toInt + b.toInt + cin.toNat),
    decide (256 ≤ a.toNat + b.toNat + cin.toNat))

/-- The byte the difference modulo 256 leaves, and the flags I, N, Z, V, C (00_scope.md R7). -/
def differenceByte (a b : Byte) (bin : Bool) : Byte :=
  BitVec.ofNat 8 ((a.toNat + 512 - b.toNat - bin.toNat) % 256)

def differenceFlags (i : Bool) (a b : Byte) (bin : Bool) : Bool × Bool × Bool × Bool × Bool :=
  (i, (nz (differenceByte a b bin)).1, (nz (differenceByte a b bin)).2, overflows (a.toInt - b.toInt - bin.toNat),
    decide (a.toNat < b.toNat + bin.toNat))

/-- What a one-operand operation leaves: the result, V and C, from the operand and the flags before. N and Z follow the
result. -/
structure Rewritten where
  r : Byte
  v : Bool
  c : Bool

/-- The register form of a one-operand operation. -/
def rewritesA (i : Instr) (f : Byte → State → Rewritten) (s : State) : Prop :=
  ∃ t, exec i s = .next t ∧ regs t = ((f s.a s).r, s.x, s.y, s.sp, s.pc) ∧
    flags t = (s.flagI, (nz (f s.a s).r).1, (nz (f s.a s).r).2, (f s.a s).v, (f s.a s).c) ∧ noAccess s t

/-- The memory form of a one-operand operation. -/
def rewritesCell (i : Instr) (m : Ea) (f : Byte → State → Rewritten) (s : State) : Prop :=
  ∃ t, exec i s = .next t ∧ regs t = regs s ∧
    flags t = (s.flagI, (nz (f (readValue (eaOf m s) s) s).r).1, (nz (f (readValue (eaOf m s) s) s).r).2,
      (f (readValue (eaOf m s) s) s).v, (f (readValue (eaOf m s) s) s).c) ∧
    didRewrite (eaOf m s) (f (readValue (eaOf m s) s) s).r s t

/-- `r <- u8(0 - m)`, V when m = $80, C when m is not 0 (R176, R177). -/
def negated (m : Byte) (_ : State) : Rewritten :=
  ⟨BitVec.ofNat 8 (256 - m.toNat), decide (m.toNat = 0x80), decide (m.toNat ≠ 0)⟩
/-- `r <- u8(m - 1)`, V when m = $80, C unchanged (R178, R179). -/
def decremented (m : Byte) (s : State) : Rewritten :=
  ⟨BitVec.ofNat 8 (m.toNat + 255), decide (m.toNat = 0x80), s.flagC⟩
/-- `r <- u8(m + 1)`, V when m = $7F, C unchanged (R180, R181). -/
def incremented (m : Byte) (s : State) : Rewritten :=
  ⟨BitVec.ofNat 8 (m.toNat + 1), decide (m.toNat = 0x7F), s.flagC⟩
/-- `~m = 255 - m`, V cleared, C unchanged (R205, R206). -/
def complemented (m : Byte) (s : State) : Rewritten := ⟨BitVec.ofNat 8 (255 - m.toNat), false, s.flagC⟩
/-- ASR: `m[7] ++ m[7:1]`, V cleared, C = m[0] (R210, R211). -/
def shiftedRightArith (m : Byte) (_ : State) : Rewritten :=
  ⟨BitVec.ofBool (m.getLsbD 7) ++ m.extractLsb 7 1, false, m.getLsbD 0⟩
/-- LSL: `m[6:0] ++ 0`, V = m[7] ^ m[6], C = m[7] (R212, R213). -/
def shiftedLeft (m : Byte) (_ : State) : Rewritten :=
  ⟨m.extractLsb 6 0 ++ BitVec.ofBool false, m.getLsbD 7 ^^ m.getLsbD 6, m.getLsbD 7⟩
/-- LSR: `0 ++ m[7:1]`, V = m[7], C = m[0] (R214, R215). -/
def shiftedRight (m : Byte) (_ : State) : Rewritten :=
  ⟨BitVec.ofBool false ++ m.extractLsb 7 1, m.getLsbD 7, m.getLsbD 0⟩
/-- ROL: `m[6:0] ++ Cold`, V = m[7] ^ m[6], C = m[7] (R216, R217). -/
def rotatedLeft (m : Byte) (s : State) : Rewritten :=
  ⟨m.extractLsb 6 0 ++ BitVec.ofBool s.flagC, m.getLsbD 7 ^^ m.getLsbD 6, m.getLsbD 7⟩
/-- ROR: `Cold ++ m[7:1]`, V = Cold ^ m[7], C = m[0] (R218, R219). -/
def rotatedRight (m : Byte) (s : State) : Rewritten :=
  ⟨BitVec.ofBool s.flagC ++ m.extractLsb 7 1, s.flagC ^^ m.getLsbD 7, m.getLsbD 0⟩

/-- A load into a register: what the register write does to A, X, Y, SP is `regsAfter`. -/
def loads (i : Instr) (o : Src) (regsAfter : Byte × Byte × Byte × Byte × Byte) (s : State) : Prop :=
  ∃ t, exec i s = .next t ∧ regs t = regsAfter ∧
    flags t = (s.flagI, (nz (srcValue o s)).1, (nz (srcValue o s)).2, false, s.flagC) ∧ didReadSrc o s t

/-- A store of `v` at `adr` that leaves the registers `regsAfter` and no flag changed. -/
def stores (i : Instr) (adr : Addr) (v : Byte) (regsAfter : Byte × Byte × Byte × Byte × Byte) (s : State) : Prop :=
  ∃ t, exec i s = .next t ∧ regs t = regsAfter ∧ flags t = flags s ∧ didWrite adr v s t

/-- A takes `r` and the flags become `f`; the source operand is read. -/
def operatesOnA (i : Instr) (o : Src) (r : Byte) (f : Bool × Bool × Bool × Bool × Bool) (s : State) : Prop :=
  ∃ t, exec i s = .next t ∧ regs t = (r, s.x, s.y, s.sp, s.pc) ∧ flags t = f ∧ didReadSrc o s t

/-- The flags become `f`, no register changes; the source operand is read. -/
def tests (i : Instr) (o : Src) (f : Bool × Bool × Bool × Bool × Bool) (s : State) : Prop :=
  ∃ t, exec i s = .next t ∧ regs t = regs s ∧ flags t = f ∧ didReadSrc o s t

/-- A conditional branch of operation code `op`: two bytes, 4 cycles, to PC + Offset when `taken`, else on (R160). -/
def branchesWhen (branch : Byte → Instr) (op : Byte) (taken : State → Bool) : Prop :=
  ∀ (offset : Byte) (s : State), Encoded [op, offset] (branch offset) 4 ∧
    exec (branch offset) s = .next (if taken s then { s with pc := s.pc + offset } else s)

/-- `n` times the same instruction. -/
def repeated (i : Instr) : Nat → State → Host.Outcome State Fault Refusal
  | 0, s => .next s
  | n + 1, s =>
    match exec i s with
    | .next t => repeated i n t
    | .fault f => .fault f
    | .refused r => .refused r

/-- After the instruction, each of the ten order branches goes where the comparison of the two bytes says
(42_flow_control.md R161). -/
def ordersBranches (i : Instr) (reg opr : Byte) (s : State) : Prop :=
  ∃ t, exec i s = .next t ∧ ∀ offset : Byte,
    let goes := fun (b : Instr) (holds : Bool) =>
      exec b t = .next (if holds then { t with pc := t.pc + offset } else t)
    goes (.beq offset) (decide (reg = opr)) ∧ goes (.bne offset) (decide (reg ≠ opr)) ∧
    goes (.bhi offset) (decide (opr.toNat < reg.toNat)) ∧ goes (.bcc offset) (decide (opr.toNat ≤ reg.toNat)) ∧
    goes (.bls offset) (decide (reg.toNat ≤ opr.toNat)) ∧ goes (.bcs offset) (decide (reg.toNat < opr.toNat)) ∧
    goes (.bgt offset) (decide (opr.toInt < reg.toInt)) ∧ goes (.bge offset) (decide (opr.toInt ≤ reg.toInt)) ∧
    goes (.ble offset) (decide (reg.toInt ≤ opr.toInt)) ∧ goes (.blt offset) (decide (reg.toInt < opr.toInt))

/-- For every state exactly one of the two branches is taken (told by the target where target and PC differ). -/
def complementary (p q : Byte → Instr) : Prop :=
  ∀ (offset : Byte) (s : State), ∃ t u, exec (p offset) s = .next t ∧ exec (q offset) s = .next u ∧
    ((t.pc = s.pc + offset ∧ u.pc = s.pc) ∨ (t.pc = s.pc ∧ u.pc = s.pc + offset))

/-! ### The whole instruction set -/

/-- What an instruction does to one flag, in the columns of 10_state.md R28. -/
inductive FlagEffect where
  | keeps
  | clears
  | sets
  | writes
deriving DecidableEq, Repr

/-- The flag before and after obey the column. -/
def FlagEffect.obeyed (e : FlagEffect) (before after : Bool) : Prop :=
  match e with
  | .keeps => after = before
  | .clears => after = false
  | .sets => after = true
  | .writes => True

/-- The rows of 10_state.md R28: the effects on I, N, Z, V, C. -/
def flagTable : Instr → FlagEffect × FlagEffect × FlagEffect × FlagEffect × FlagEffect
  | .lda _ | .ldx _ | .ldy _ | .ldsp _ => (.keeps, .writes, .writes, .clears, .keeps)
  | .leax _ | .leay _ | .leasp _ | .sta _ | .stx _ | .sty _ | .stsp _ => (.keeps, .keeps, .keeps, .keeps, .keeps)
  | .tfrAToCC | .exgACC => (.writes, .writes, .writes, .writes, .writes)
  | .tfrCCToA | .tfrXToY | .tfrYToX | .tfrXToSP | .tfrSPToX | .tfrYToSP | .tfrSPToY | .exgXY | .exgXSP | .exgYSP =>
    (.keeps, .keeps, .keeps, .keeps, .keeps)
  | .jmp _ | .jsr _ | .bra _ | .bsr _ | .bmi _ | .bpl _ | .beq _ | .bne _ | .bvs _ | .bvc _ | .bcs _ | .bcc _ | .bhi _
  | .bls _ | .bgt _ | .bge _ | .ble _ | .blt _ | .rts => (.keeps, .keeps, .keeps, .keeps, .keeps)
  | .rti => (.writes, .writes, .writes, .writes, .writes)
  | .adda _ | .adca _ | .suba _ | .sbca _ | .nega | .neg _ => (.keeps, .writes, .writes, .writes, .writes)
  | .clra | .clr _ => (.keeps, .clears, .sets, .clears, .clears)
  | .inca | .inc _ | .deca | .dec _ => (.keeps, .writes, .writes, .writes, .keeps)
  | .cmpa _ | .cmpx _ | .cmpy _ | .cmpsp _ => (.keeps, .writes, .writes, .writes, .writes)
  | .bita _ => (.keeps, .writes, .writes, .clears, .keeps)
  | .tsta | .tst _ => (.keeps, .writes, .writes, .clears, .clears)
  | .anda _ | .ora _ | .eora _ | .coma | .com _ => (.keeps, .writes, .writes, .clears, .keeps)
  | .andcc _ | .orcc _ => (.writes, .writes, .writes, .writes, .writes)
  | .asra | .asr _ => (.keeps, .writes, .writes, .clears, .writes)
  | .lsla | .lsl _ | .rola | .rol _ | .rora | .ror _ => (.keeps, .writes, .writes, .writes, .writes)
  | .lsra | .lsr _ => (.keeps, .clears, .writes, .writes, .writes)
  | .psha | .pshx | .pshy | .pshcc | .pula | .pulx | .puly => (.keeps, .keeps, .keeps, .keeps, .keeps)
  | .pulcc => (.writes, .writes, .writes, .writes, .writes)
  | .nop => (.keeps, .keeps, .keeps, .keeps, .keeps)
  | .undefined _ => (.writes, .keeps, .keeps, .keeps, .keeps)

/-- The operand updates the index register automatically. -/
def Loc.updates (r : Index) : Loc → Bool
  | .ea _ => false
  | .auto q _ => q == r

/-- The source operand updates the index register automatically. -/
def Src.updates (r : Index) : Src → Bool
  | .im _ => false
  | .loc l => Loc.updates r l

/-- The instructions whose destination is A (10_state.md R11). -/
def writesA : Instr → Bool
  | .lda _ | .adda _ | .adca _ | .suba _ | .sbca _ | .anda _ | .ora _ | .eora _ | .clra | .nega | .inca | .deca | .coma
  | .asra | .lsla | .lsra | .rola | .rora | .pula | .tfrCCToA | .exgACC | .rti => true
  | _ => false

/-- The instructions that write X (10_state.md R12). -/
def writesX : Instr → Bool
  | .ldx _ | .leax _ | .tfrYToX | .tfrSPToX | .exgXY | .exgXSP | .pulx | .rti => true
  | .lda o => Src.updates .x o
  | .sta l => Loc.updates .x l
  | _ => false

/-- The instructions that write Y (10_state.md R12). -/
def writesY : Instr → Bool
  | .ldy _ | .leay _ | .tfrXToY | .tfrSPToY | .exgXY | .exgYSP | .puly | .rti => true
  | .lda o => Src.updates .y o
  | .sta l => Loc.updates .y l
  | _ => false

/-- The instructions that write SP (10_state.md R13); an undefined code through the Trap entry. -/
def writesSP : Instr → Bool
  | .psha | .pshx | .pshy | .pshcc | .pula | .pulx | .puly | .pulcc | .jsr _ | .bsr _ | .rts | .rti | .undefined _
  | .ldsp _ | .leasp _ | .tfrXToSP | .tfrYToSP | .exgXSP | .exgYSP => true
  | _ => false

/-- The instructions that write PC beyond the fetch (10_state.md R14); an undefined code through the Trap entry. -/
def writesPC : Instr → Bool
  | .jmp _ | .jsr _ | .bra _ | .bsr _ | .bmi _ | .bpl _ | .beq _ | .bne _ | .bvs _ | .bvc _ | .bcs _ | .bcc _ | .bhi _
  | .bls _ | .bgt _ | .bge _ | .ble _ | .blt _ | .rts | .rti | .undefined _ => true
  | _ => false

/-- The instructions whose RTN writes memory (20_memory.md R38); an undefined code through the Trap entry. -/
def writesMemory : Instr → Bool
  | .sta _ | .stx _ | .sty _ | .stsp _ | .clr _ | .neg _ | .inc _ | .dec _ | .com _ | .lsl _ | .lsr _ | .rol _ | .ror _
  | .asr _ | .psha | .pshx | .pshy | .pshcc | .jsr _ | .bsr _ | .undefined _ => true
  | _ => false

end Sys2Proof.Claims

section

open Sys2Proof Sys2Proof.Machine Sys2Proof.Claims

/-! ### Encoding -/

/-- Decoding the bytes of a well-formed instruction gives it back, and the bytes after it, for every operand value. -/
def Obligations.DecodeOfEncodeIsTheInstruction : Prop :=
  ∀ (i : Instr) (rest : List Byte), i.wf = true → decode (encode i ++ rest) = .ok (i, rest)

/-- What decodes is well-formed and is the bytes of its instruction: no two strings of bytes mean one instruction. -/
def Obligations.EncodeOfDecodeIsTheBytes : Prop :=
  ∀ (bytes rest : List Byte) (i : Instr), decode bytes = .ok (i, rest) → i.wf = true ∧ encode i ++ rest = bytes

/-- R51, R62, R61: with an operand byte at hand every operation code decodes, to an instruction of one or two bytes; it is
the undefined instruction exactly for $03, $04, $E0, $DF, $EF and $FF, which are one byte long. -/
def Obligations.EveryOperationCodeDecodes : Prop :=
  ∀ (op b : Byte) (rest : List Byte), ∃ i, decode (op :: b :: rest) = .ok (i, if lengthOf op = 2 then rest else b :: rest) ∧
    (lengthOf op = 1 ∨ lengthOf op = 2) ∧
    ((∃ code, i = .undefined code) ↔ op ∈ [0x03, 0x04, 0xE0, 0xDF, 0xEF, 0xFF]) ∧
    (op ∈ [0x03, 0x04, 0xE0, 0xDF, 0xEF, 0xFF] → i = .undefined op ∧ lengthOf op = 1)

/-- A few cells of the opcode map (R69), one or more of every group, with the operand byte $8F where there is one. -/
def Obligations.WordsOfTheMapDecode : Prop :=
  [decodeTableWord 8 0x00, decodeTableWord 16 0x8F02, decodeTableWord 8 0x18, decodeTableWord 16 0x8F2C,
    decodeTableWord 8 0x61, decodeTableWord 8 0x44, decodeTableWord 16 0x8FC5, decodeTableWord 16 0x8FBE,
    decodeTableWord 8 0xEE, decodeTableWord 8 0xF5, decodeTableWord 16 0x8F49, decodeTableWord 8 0x0D,
    decodeTableWord 8 0x17, decodeTableWord 8 0xDF] =
  [some .nop, some (.orcc 0x8F), some .tfrAToCC, some (.bgt 0x8F), some (.sty .ax), some .rti,
    some (.adca (.loc (.ea (.nx 0x8F)))), some (.leasp (.ns 0x8F)), some (.sta (.auto .y .preDec)),
    some (.lda (.loc (.auto .x .postInc))), some (.tst (.ns 0x8F)), some .rola, some .pulcc, some (.undefined 0xDF)]

/-! ### Memory, ports, addressing modes -/

/-- R32: on an address that is no port, MemRead gives what MemWrite last stored there, or the byte the memory specifies for
the cell, or, where it specifies none, the free content `Config.image` of the cell (log 5), whatever was written elsewhere; it
has no side effect; a write leaves every other cell, and nothing but memory changes. -/
def Obligations.ReadGivesTheLastWrite : Prop :=
  ∀ (s : State) (adr : Addr) (v : Byte), portOf adr = none →
    memRead adr (memWrite adr v s) = (v, memWrite adr v s) ∧ memRead adr s = (s.peek adr, s) ∧
    (∀ held, s.mem.specified adr.toNat = some held → s.peek adr = held) ∧
    (s.mem.specified adr.toNat = none → ∀ b w, b ≠ adr →
      memRead adr (memWrite b w s) = (Config.image adr.toNat, memWrite b w s)) ∧
    (∀ b, b ≠ adr → (memWrite adr v s).peek b = s.peek b) ∧ memWrite adr v s = { s with mem := (memWrite adr v s).mem }

/-- R33 with decision D7 (log 6): each port has an input side and an output side and stores nothing. A read gives the
scheduled byte, else a free value, and records an input event; a write records an output event, changes no cell, and a
later read does not see it. -/
def Obligations.PortsAreInputAndOutput : Prop :=
  ∀ (s : State) (p : Port) (v : Byte),
    (memRead (portAddress p) s).1 = (s.scheduled p).headD (Config.portIn p s.draws) ∧
    didRead (portAddress p) s (memRead (portAddress p) s).2 ∧ regs (memRead (portAddress p) s).2 = regs s ∧
    flags (memRead (portAddress p) s).2 = flags s ∧
    memWrite (portAddress p) v s = { s with events := s.events ++ [.output p v] } ∧
    readValue (portAddress p) (memWrite (portAddress p) v s) = readValue (portAddress p) s ∧
    (∀ q, portOf (portAddress q) = some q) ∧ ∀ adr, portOf adr = none ↔ adr ≠ 0xFB ∧ adr ≠ 0xFC

/-- R54, R56 to R59: the effective addresses, modulo 256, and the automatic updates. -/
def Obligations.EffectiveAddressesFollowTheModes : Prop :=
  ∀ (s : State) (n : Byte),
    eaOf (.ab n) s = n ∧ (eaOf (.ns n) s).toNat = (s.sp.toNat + n.toNat) % 256 ∧
    (eaOf (.nx n) s).toNat = (s.x.toNat + n.toNat) % 256 ∧ (eaOf (.ny n) s).toNat = (s.y.toNat + n.toNat) % 256 ∧
    (eaOf .ax s).toNat = (s.x.toNat + s.a.toNat) % 256 ∧ (eaOf .ay s).toNat = (s.y.toNat + s.a.toNat) % 256 ∧
    ∀ r : Index,
      locAddress (.auto r .preInc) s = s.index r + 1 ∧ locAddress (.auto r .preDec) s = s.index r - 1 ∧
      locAddress (.auto r .postInc) s = s.index r ∧ locAddress (.auto r .postDec) s = s.index r

/-- The memory of the model keeps its canonical form (the model's own choice of representation, log 5): every step keeps
it. -/
def Obligations.StepKeepsMemoryCanonical : Prop :=
  ∀ s t : State, s.mem.wf = true → step s = .next t → t.mem.wf = true

/-- The canonical form holds at reset, and memories that specify the same bytes are equal (the model's own choice of
representation, log 5). -/
def Obligations.CanonicalMemoryIsTheContents : Prop :=
  State.reset.mem.wf = true ∧
    ∀ m k : Memory, m.wf = true → k.wf = true → (∀ adr, m.specified adr = k.specified adr) → m = k

/-! ### The step -/

/-- R25, R26, R27: at a boundary that fetches, the step runs the instruction whose bytes stand in memory at PC, with PC
past them modulo 256. The second clause is the same for bytes read from anywhere: each byte is one MemRead, and the second is
read only if the instruction has two bytes. That a fetch at a port address is an ordinary read of the port (R33) is decision
D22 (log 15). -/
def Obligations.StepRunsTheDecodedInstruction : Prop :=
  (∀ (s : State) (bytes : List Byte) (i : Instr), fetches s → holdsAt s s.pc bytes → decode bytes = .ok (i, []) →
    step s = exec i { s.passBoundary with pc := s.pc + BitVec.ofNat 8 bytes.length }) ∧
  ∀ s : State, fetches s →
    let s₁ := { afterRead s.pc s.passBoundary with pc := s.pc + 1 }
    let s₂ := { afterRead (s.pc + 1) s₁ with pc := s.pc + 2 }
    let op := readValue s.pc s.passBoundary
    (∀ i, decode [op] = .ok (i, []) → step s = exec i s₁) ∧
    (∀ i, decode [op, readValue (s.pc + 1) s₁] = .ok (i, []) → step s = exec i s₂)

/-- R253, R255, R256, R258, R259, R260: at a boundary with the line high and I = 0 the IRQ entry is made, whatever stands
at PC. The frame holds PC, Y, X, A and CC as they were; SP is 5 lower; I is 1; PC is the content of the vector cell $FD
after the frame is written. The polarity of I and its setting are decisions D2, D3 (log 11), the level input D8 (log 7),
the order D12 (log 14); that the entry comes before the fetch of an undefined code at PC too is D14 (log 26). -/
def Obligations.InterruptIsEnteredAtTheBoundary : Prop :=
  ∀ s : State, lineHigh s = true → s.flagI = false → ∃ c t, isCC c s ∧ step s = .next t ∧
    regs t = (s.a, s.x, s.y, s.sp - 5, t.peek 0xFD) ∧ flags t = (true, s.flagN, s.flagZ, s.flagV, s.flagC) ∧
    didWrites (frame s.pc c s) s.passBoundary t

/-- R251, R254, R255, R257, R258, R259: an undefined code takes Trap, in every state and whatever I is. PC during its
execution is the address after the code, and it is what the frame saves. I becomes 1 if TRAP_SETS_I, else stays (decision
D4, log 2); the one-byte length of the code is decision D21 (log 16), the order D12 (log 14). -/
def Obligations.UndefinedCodeTakesTrap : Prop :=
  ∀ (code : Byte) (s : State), ∃ c t, isCC c s ∧ exec (.undefined code) s = .next t ∧
    regs t = (s.a, s.x, s.y, s.sp - 5, t.peek 0xFE) ∧
    flags t = (s.flagI || Config.trapSetsI, s.flagN, s.flagZ, s.flagV, s.flagC) ∧
    didWrites (frame s.pc c s) s t ∧ t.draws = s.draws + 1 ∧
    (code ∈ [0x03, 0x04, 0xE0, 0xDF, 0xEF, 0xFF] → ∀ rest, decode (code :: rest) = .ok (.undefined code, rest))

/-- R280, R267, R260: a Reset at a boundary, whatever else is pending: PC is the content of cell $FF, I is RESET_I,
nothing is stacked and no memory cell or port event changes. The other registers and flags are open: nothing is said of
them (decision D5, log 10). -/
def Obligations.ResetJumpsThroughItsVector : Prop :=
  ∀ (s : State) (later : List BoundaryInput), s.boundary = .reset :: later → ∃ t, step s = .next t ∧
    t.pc = s.peek 0xFF ∧ t.flagI = Config.resetI ∧ cellsSame s t ∧ t.events = s.events ∧ t.boundary = later ∧
    t.inFB = s.inFB ∧ t.inFC = s.inFC

/-- R24: right after reset, whatever image is loaded, PC is the content of the reset vector cell, and the image is what
the memory holds. The other values of the reset state, and the byte its cell $FF holds (log 30), are the model's (log 3 to 8)
and not stated here. -/
def Obligations.ResetStartsAtTheResetVector : Prop :=
  State.reset.pc = State.reset.peek 0xFF ∧ ∀ image : Memory,
    (State.resetWith image).pc = (State.resetWith image).peek 0xFF ∧ (State.resetWith image).mem = image

/-- R262, R254, R256, R257: an interrupt or a Trap whose handler does nothing but RTI restores every register and flag, I
among them and whatever TRAP_SETS_I is, wherever SP is, as long as no byte of the frame falls on a port. PC is then the
instruction not fetched, or the address after the undefined code. -/
def Obligations.ExceptionThenReturnRestoresAll : Prop :=
  (∀ s : State, lineHigh s = true → s.flagI = false → frameClearOfPorts s → ∃ t u, step s = .next t ∧
    exec .rti t = .next u ∧ regs u = regs s ∧ flags u = flags s) ∧
  ∀ (code : Byte) (s : State), frameClearOfPorts s → ∃ t u, exec (.undefined code) s = .next t ∧
    exec .rti t = .next u ∧ regs u = regs s ∧ flags u = flags s

/-- 93_implementation_defined.md part 1: from every state the step has a successor; so no run ever stops (R285). -/
def Obligations.NoRunEverStops : Prop := ∀ s : State, s.Safe

/-- R285 with decision D9 (log 28): an ended run repeats its state for ever. -/
def Obligations.EndedRunRepeats : Prop :=
  ∀ s : State, s.runEnded → ∃ t, step s = .next t ∧ s.sameMachine t ∧ t.runEnded

/-- R33, R38: the record of port events is the machine's visible behaviour: a step only adds to its end. -/
def Obligations.PortEventsOnlyGrow : Prop :=
  ∀ s t : State, step s = .next t → s.events <+: t.events

/-! ### Rules over the whole instruction set -/

/-- R28: every instruction leaves, clears, sets or writes each flag as its row of the table says. I of TFR A,CC, EXG A,CC
and PULCC is decision D16 (log 12). -/
def Obligations.FlagsFollowTheTable : Prop :=
  ∀ (i : Instr) (s t : State), exec i s = .next t →
    (flagTable i).1.obeyed s.flagI t.flagI ∧ (flagTable i).2.1.obeyed s.flagN t.flagN ∧
    (flagTable i).2.2.1.obeyed s.flagZ t.flagZ ∧ (flagTable i).2.2.2.1.obeyed s.flagV t.flagV ∧
    (flagTable i).2.2.2.2.obeyed s.flagC t.flagC

/-- R11 to R14: an instruction changes A, X, Y, SP or PC only if the rule of that register lists it. -/
def Obligations.RegistersChangeOnlyWhereListed : Prop :=
  ∀ (i : Instr) (s t : State), i.wf = true → exec i s = .next t →
    (writesA i = false → t.a = s.a) ∧ (writesX i = false → t.x = s.x) ∧ (writesY i = false → t.y = s.y) ∧
    (writesSP i = false → t.sp = s.sp) ∧ (writesPC i = false → t.pc = s.pc)

/-- R38: an instruction whose RTN writes no memory leaves every cell as it was. -/
def Obligations.MemoryChangesOnlyWhereListed : Prop :=
  ∀ (i : Instr) (s t : State), writesMemory i = false → exec i s = .next t → ∀ adr, t.peek adr = s.peek adr

/-! ### Load and store -/

/-- R100: LDA in its fifteen forms. -/
def Obligations.LdaLoadsA : Prop :=
  ∀ (o : Src) (s : State), Encoded (ldaBytes o) (.lda o) (ldaCycles o) ∧
    loads (.lda o) o (srcValue o s, indexAfterSrc o .x s, indexAfterSrc o .y s, s.sp, s.pc) s

/-- R101 to R103 with decision D15 (log 13): LDX, LDY, LDSP; the address is formed from the old registers. -/
def Obligations.LdxLdyLdspLoad : Prop :=
  ∀ (o : Src) (s : State), o.isImOr Ea.isConstantMode = true →
    Encoded (fiveModeBytes 0x0 o) (.ldx o) (imOrMemory 2 3 o) ∧
    Encoded (fiveModeBytes 0x1 o) (.ldy o) (imOrMemory 2 3 o) ∧
    Encoded (fiveModeBytes 0x2 o) (.ldsp o) (imOrMemory 2 3 o) ∧
    loads (.ldx o) o (s.a, srcValue o s, s.y, s.sp, s.pc) s ∧ loads (.ldy o) o (s.a, s.x, srcValue o s, s.sp, s.pc) s ∧
    loads (.ldsp o) o (s.a, s.x, s.y, srcValue o s, s.pc) s

/-- R104 to R106: LEAX, LEAY, LEASP take the sum and change nothing else. -/
def Obligations.LeaTakesTheAddress : Prop :=
  ∀ (n : Byte) (s : State),
    Encoded [0xCC, n] (.leax (.nx n)) 4 ∧ exec (.leax (.nx n)) s = .next { s with x := s.x + n } ∧
    Encoded [0xDC, n] (.leax (.ns n)) 4 ∧ exec (.leax (.ns n)) s = .next { s with x := s.sp + n } ∧
    Encoded [0xCD, n] (.leay (.ny n)) 4 ∧ exec (.leay (.ny n)) s = .next { s with y := s.y + n } ∧
    Encoded [0xDD, n] (.leay (.ns n)) 4 ∧ exec (.leay (.ns n)) s = .next { s with y := s.sp + n } ∧
    Encoded [0xBE, n] (.leasp (.ns n)) 4 ∧ exec (.leasp (.ns n)) s = .next { s with sp := s.sp + n } ∧
    Encoded [0xCE, n] (.leasp (.nx n)) 4 ∧ exec (.leasp (.nx n)) s = .next { s with sp := s.x + n } ∧
    Encoded [0xDE, n] (.leasp (.ny n)) 4 ∧ exec (.leasp (.ny n)) s = .next { s with sp := s.y + n }

/-- R107: STA in its fourteen forms stores A at the operand's address; only X or Y, in the automatic modes, changes. -/
def Obligations.StaStoresA : Prop :=
  ∀ (l : Loc) (s : State), Encoded (locBytes 0xE0 l) (.sta l) (threeOrAuto l) ∧
    stores (.sta l) (locAddress l s) s.a (s.a, indexAfter l .x s, indexAfter l .y s, s.sp, s.pc) s

/-- R108 to R110: STX, STY, STSP in their six forms. -/
def Obligations.StxStyStspStore : Prop :=
  ∀ (m : Ea) (s : State), Encoded (sixModeBytes 0x0 m) (.stx m) 3 ∧ Encoded (sixModeBytes 0x1 m) (.sty m) 3 ∧
    Encoded (sixModeBytes 0x2 m) (.stsp m) 3 ∧ stores (.stx m) (eaOf m s) s.x (regs s) s ∧
    stores (.sty m) (eaOf m s) s.y (regs s) s ∧ stores (.stsp m) (eaOf m s) s.sp (regs s) s

/-! ### Data movement -/

/-- R120, R128 with decision D16 (log 12): TFR A,CC and EXG A,CC write all five flags, I from bit 4; EXG leaves the old CC
in A with open bits 7..5 (decision D1, log 1). -/
def Obligations.AToCCWritesFiveFlags : Prop :=
  ∀ s : State, Encoded [0x18] .tfrAToCC 2 ∧ Encoded [0x9F] .exgACC 4 ∧
    (∃ t, exec .tfrAToCC s = .next t ∧ regs t = regs s ∧ flags t = flagsOf s.a ∧ noAccess s t) ∧
    ∃ c t, isCC c s ∧ exec .exgACC s = .next t ∧ regs t = (c, s.x, s.y, s.sp, s.pc) ∧ flags t = flagsOf s.a ∧
      noAccess { s with draws := s.draws + 1 } t

/-- R121 with decision D1 (log 1): TFR CC,A puts CC as a byte into A, bits 7..5 open, and changes no flag. -/
def Obligations.CCToAKeepsTheFlags : Prop :=
  ∀ s : State, Encoded [0x19] .tfrCCToA 2 ∧
    ∃ c, isCC c s ∧ exec .tfrCCToA s = .next { s with a := c, draws := s.draws + 1 }

/-- R122 to R127: the six TFR among X, Y and SP. -/
def Obligations.TfrCopiesARegister : Prop :=
  ∀ s : State,
    Encoded [0x1A] .tfrXToY 2 ∧ exec .tfrXToY s = .next { s with y := s.x } ∧
    Encoded [0x1B] .tfrYToX 2 ∧ exec .tfrYToX s = .next { s with x := s.y } ∧
    Encoded [0x1C] .tfrXToSP 2 ∧ exec .tfrXToSP s = .next { s with sp := s.x } ∧
    Encoded [0x1D] .tfrSPToX 2 ∧ exec .tfrSPToX s = .next { s with x := s.sp } ∧
    Encoded [0x1E] .tfrYToSP 2 ∧ exec .tfrYToSP s = .next { s with sp := s.y } ∧
    Encoded [0x1F] .tfrSPToY 2 ∧ exec .tfrSPToY s = .next { s with y := s.sp }

/-- R129 to R131: the three EXG among X, Y and SP. -/
def Obligations.ExgSwapsTwoRegisters : Prop :=
  ∀ s : State,
    Encoded [0xAF] .exgXY 4 ∧ exec .exgXY s = .next { s with x := s.y, y := s.x } ∧
    Encoded [0xBF] .exgXSP 4 ∧ exec .exgXSP s = .next { s with x := s.sp, sp := s.x } ∧
    Encoded [0xCF] .exgYSP 4 ∧ exec .exgYSP s = .next { s with y := s.sp, sp := s.y }

/-! ### Flow control -/

/-- R140: JMP in its five forms goes to the effective address itself, which is not read. -/
def Obligations.JmpGoesToTheAddress : Prop :=
  ∀ (m : Ea) (s : State), m.isJumpMode = true →
    Encoded (sixModeBytes 0x3 m) (.jmp m) (abOrIndexed 2 4 m) ∧
    exec (.jmp m) s = .next { s with pc := eaOf m s }

/-- R141: JSR pushes the address of the next instruction and goes to the effective address of the registers before the
push. -/
def Obligations.JsrPushesTheReturnAddress : Prop :=
  ∀ (m : Ea) (s : State), m.isJumpMode = true →
    Encoded (sixModeBytes 0x4 m) (.jsr m) (abOrIndexed 4 5 m) ∧
    stores (.jsr m) (s.sp - 1) s.pc (s.a, s.x, s.y, s.sp - 1, eaOf m s) s

/-- R142, R143: BRA goes to PC + Offset; BSR pushes the return address first. -/
def Obligations.BraAndBsrGoToTheTarget : Prop :=
  ∀ (offset : Byte) (s : State), Encoded [0x21, offset] (.bra offset) 4 ∧
    exec (.bra offset) s = .next { s with pc := s.pc + offset } ∧ Encoded [0x20, offset] (.bsr offset) 5 ∧
    stores (.bsr offset) (s.sp - 1) s.pc (s.a, s.x, s.y, s.sp - 1, s.pc + offset) s

/-- R144 to R151: the eight branches on one flag. -/
def Obligations.BranchesOnOneFlag : Prop :=
  branchesWhen .bmi 0x22 (fun s => s.flagN) ∧ branchesWhen .bpl 0x23 (fun s => !s.flagN) ∧
  branchesWhen .beq 0x24 (fun s => s.flagZ) ∧ branchesWhen .bne 0x25 (fun s => !s.flagZ) ∧
  branchesWhen .bvs 0x26 (fun s => s.flagV) ∧ branchesWhen .bvc 0x27 (fun s => !s.flagV) ∧
  branchesWhen .bcs 0x28 (fun s => s.flagC) ∧ branchesWhen .bcc 0x29 (fun s => !s.flagC)

/-- R152 to R157: the six branches on a formula of the flags, each condition written out on the flag values. -/
def Obligations.BranchesOnAFormula : Prop :=
  branchesWhen .bhi 0x2A (fun s => decide (s.flagC = false ∧ s.flagZ = false)) ∧
  branchesWhen .bls 0x2B (fun s => decide (s.flagC = true ∨ s.flagZ = true)) ∧
  branchesWhen .bgt 0x2C (fun s => decide (s.flagN = s.flagV ∧ s.flagZ = false)) ∧
  branchesWhen .bge 0x2D (fun s => decide (s.flagN = s.flagV)) ∧
  branchesWhen .ble 0x2E (fun s => decide (s.flagN ≠ s.flagV ∨ s.flagZ = true)) ∧
  branchesWhen .blt 0x2F (fun s => decide (s.flagN ≠ s.flagV))

/-- R158: RTS pulls PC. -/
def Obligations.RtsPullsPC : Prop :=
  ∀ s : State, Encoded [0x43] .rts 2 ∧ ∃ t, exec .rts s = .next t ∧
    regs t = (s.a, s.x, s.y, s.sp + 1, readValue s.sp s) ∧ flags t = flags s ∧ didRead s.sp s t

/-- R159: RTI pulls CC, A, X, Y and PC in this order from five ascending addresses, modulo 256. -/
def Obligations.RtiPullsFiveBytes : Prop :=
  ∀ s : State, Encoded [0x44] .rti 6 ∧ ∃ t c a x y pc u,
    readMany [s.sp, s.sp + 1, s.sp + 2, s.sp + 3, s.sp + 4] s = ([c, a, x, y, pc], u) ∧ exec .rti s = .next t ∧
    regs t = (a, x, y, s.sp + 5, pc) ∧ flags t = flagsOf c ∧ cellsSame s t ∧ inputsSame u t ∧ t.events = u.events

/-- R161: after CMPA, CMPX, CMPY, CMPSP or SUBA each order branch goes where the comparison of register and operand,
equal, unsigned or signed, says. -/
def Obligations.BranchesAfterACompareOrder : Prop :=
  ∀ (o : Src) (s : State), ordersBranches (.cmpa o) s.a (srcValue o s) s ∧ ordersBranches (.cmpx o) s.x (srcValue o s) s ∧
    ordersBranches (.cmpy o) s.y (srcValue o s) s ∧ ordersBranches (.cmpsp o) s.sp (srcValue o s) s ∧
    ordersBranches (.suba o) s.a (srcValue o s) s

/-- R161: "for every flag state exactly one of each pair branches". -/
def Obligations.ComplementaryBranches : Prop :=
  complementary .bmi .bpl ∧ complementary .beq .bne ∧ complementary .bvs .bvc ∧ complementary .bcs .bcc ∧
    complementary .bhi .bls ∧ complementary .bgt .ble ∧ complementary .bge .blt

/-- R68: a branch at `adr` whose operand byte is the assembler's offset goes to the target the programmer wrote. -/
def Obligations.AssembledBranchReachesItsTarget : Prop :=
  ∀ (s : State) (adr target : Addr), fetches s → holdsAt s adr [0x21, branchOffset adr target] → s.pc = adr →
    ∃ t, step s = .next t ∧ t.pc = target

/-! ### Integer arithmetic -/

/-- R170, R171: ADDA and ADCA: the sum modulo 256, with the carry in for ADCA, and its flags. The cycles of ADCA n,X are
decision D20 (log 17). -/
def Obligations.AddaAdcaAdd : Prop :=
  ∀ (o : Src) (s : State), o.isImOr Ea.isConstantMode = true →
    Encoded (fiveModeBytes 0x6 o) (.adda o) (imOrMemory 4 5 o) ∧
    Encoded (fiveModeBytes 0x5 o) (.adca o) (imOrMemory 4 5 o) ∧
    operatesOnA (.adda o) o (sumByte s.a (srcValue o s) false) (sumFlags s.flagI s.a (srcValue o s) false) s ∧
    operatesOnA (.adca o) o (sumByte s.a (srcValue o s) s.flagC) (sumFlags s.flagI s.a (srcValue o s) s.flagC) s

/-- R172, R173: SUBA and SBCA: the difference modulo 256, with the borrow in for SBCA, and its flags. -/
def Obligations.SubaSbcaSubtract : Prop :=
  ∀ (o : Src) (s : State), o.isImOr Ea.isConstantMode = true →
    Encoded (fiveModeBytes 0x4 o) (.suba o) (imOrMemory 4 5 o) ∧
    Encoded (fiveModeBytes 0x3 o) (.sbca o) (imOrMemory 4 5 o) ∧
    operatesOnA (.suba o) o (differenceByte s.a (srcValue o s) false)
      (differenceFlags s.flagI s.a (srcValue o s) false) s ∧
    operatesOnA (.sbca o) o (differenceByte s.a (srcValue o s) s.flagC)
      (differenceFlags s.flagI s.a (srcValue o s) s.flagC) s

/-- R174, R176, R178, R180: CLRA, NEGA, DECA, INCA. -/
def Obligations.UnaryArithmeticOnA : Prop :=
  ∀ s : State, Encoded [0x05] .clra 3 ∧ Encoded [0x06] .nega 3 ∧ Encoded [0x08] .deca 3 ∧ Encoded [0x07] .inca 3 ∧
    exec .clra s = .next { s with a := 0, flagN := false, flagZ := true, flagV := false, flagC := false } ∧
    rewritesA .nega negated s ∧ rewritesA .deca decremented s ∧ rewritesA .inca incremented s

/-- R177, R179, R181: NEG, DEC, INC read the byte at EA once and write the result to the same EA. -/
def Obligations.UnaryArithmeticOnMemory : Prop :=
  ∀ (m : Ea) (s : State), Encoded (sixModeBytes 0x6 m) (.neg m) 4 ∧ Encoded (sixModeBytes 0x8 m) (.dec m) 4 ∧
    Encoded (sixModeBytes 0x7 m) (.inc m) 4 ∧ rewritesCell (.neg m) m negated s ∧
    rewritesCell (.dec m) m decremented s ∧ rewritesCell (.inc m) m incremented s

/-- R175 with decision D12 (log 14): CLR writes 0 at EA without reading it. -/
def Obligations.ClrWritesZero : Prop :=
  ∀ (m : Ea) (s : State), Encoded (sixModeBytes 0x5 m) (.clr m) 3 ∧ ∃ t, exec (.clr m) s = .next t ∧
    regs t = regs s ∧ flags t = (s.flagI, false, true, false, false) ∧ didWrite (eaOf m s) 0 s t

/-- R182: ADDA then ADCA, and SUBA then SBCA, from the low byte upward compute on 16 bits. -/
def Obligations.CarryChainsComputeOnTwoBytes : Prop :=
  ∀ ah al bh bl : Byte,
    (let lo := add8 al bl false
     let hi := add8 ah bh lo.c
     hi.r ++ lo.r = (ah ++ al) + (bh ++ bl) ∧ hi.c = decide (65536 ≤ (ah ++ al).toNat + (bh ++ bl).toNat)) ∧
    (let lo := sub8 al bl false
     let hi := sub8 ah bh lo.c
     hi.r ++ lo.r = (ah ++ al) - (bh ++ bl) ∧ hi.c = decide ((ah ++ al).toNat < (bh ++ bl).toNat))

/-- R6, R7 and the rules of the one-operand, logic and shift instructions (R174 to R218) against the ALU's function table
(95_test_vectors.md L1.1), read as log 25 says: the two accounts of results and flags agree; for the subtraction the C flag is the inverse of the adder's carry (C13). Where an instruction
leaves C or V to its own rule, the table is compared on the rest. -/
def Obligations.FlagsAgreeWithTheAluTable : Prop :=
  ∀ (a m e : Byte) (c : Bool),
    add8 a m c = alu .add a m c ∧ sub8 a m c = { alu .sub a m (!c) with c := !(alu .sub a m (!c)).c } ∧
    negOp m c = alu .complementD m e true ∧ incOp m c = { alu .incD m e true with c := c } ∧
    decOp m c = { alu .decD m e c with c := c } ∧ comOp m c = { alu .complementD m e false with v := false, c := c } ∧
    andOp a m c = { alu .and a m c with c := c } ∧ orOp a m c = { alu .or a m c with c := c } ∧
    eorOp a m c = { alu .xor a m c with c := c } ∧ tstOp m c = alu .passE e m c ∧ clrOp m c = alu .zero m e c ∧
    lslOp m c = alu .shiftLeft m e false ∧ rolOp m c = alu .shiftLeft m e c ∧ lsrOp m c = alu .shiftRight m e false ∧
    rorOp m c = alu .shiftRight m e c ∧ asrOp m c = alu .shiftRightArith m e c ∧
    (alu .constFD a e c).r = vectorOf .irq ∧ (alu .constFE a e c).r = vectorOf .trap ∧
    (alu .constFF a e c).r = vectorOf .reset

/-! ### Integer test -/

/-- R190 to R193: the four compares leave the flags of register minus operand and nothing else. -/
def Obligations.ComparesSetFlagsOnly : Prop :=
  (∀ (o : Src) (s : State), o.isImOr Ea.isConstantMode = true →
    Encoded (fiveModeBytes 0x7 o) (.cmpa o) (imOrMemory 3 4 o) ∧
    tests (.cmpa o) o (differenceFlags s.flagI s.a (srcValue o s) false) s) ∧
  (∀ (o : Src) (s : State), o.isImOr Ea.isAbOrNs = true →
    Encoded (fiveModeBytes 0xC o) (.cmpx o) (imOrMemory 3 4 o) ∧
    Encoded (fiveModeBytes 0xD o) (.cmpy o) (imOrMemory 3 4 o) ∧
    tests (.cmpx o) o (differenceFlags s.flagI s.x (srcValue o s) false) s ∧
    tests (.cmpy o) o (differenceFlags s.flagI s.y (srcValue o s) false) s) ∧
  (∀ (o : Src) (s : State), o.isImOr Ea.isAb = true →
    Encoded (fiveModeBytes 0xE o) (.cmpsp o) (imOrMemory 3 4 o) ∧
    tests (.cmpsp o) o (differenceFlags s.flagI s.sp (srcValue o s) false) s)

/-- R194 to R196: BITA, TSTA and TST leave flags and nothing else; TST reads its cell once and does not write it. -/
def Obligations.BitAndTstSetFlagsOnly : Prop :=
  (∀ (o : Src) (s : State), o.isImOr Ea.isConstantMode = true →
    Encoded (fiveModeBytes 0x8 o) (.bita o) (imOrMemory 3 4 o) ∧
    tests (.bita o) o (s.flagI, (nz (s.a &&& srcValue o s)).1, (nz (s.a &&& srcValue o s)).2, false, s.flagC) s) ∧
  (∀ s : State, Encoded [0x09] .tsta 2 ∧ exec .tsta s =
    .next { s with flagN := (nz s.a).1, flagZ := (nz s.a).2, flagV := false, flagC := false }) ∧
  (∀ (m : Ea) (s : State), Encoded (sixModeBytes 0x9 m) (.tst m) 3 ∧
    tests (.tst m) (.loc (.ea m))
      (s.flagI, (nz (readValue (eaOf m s) s)).1, (nz (readValue (eaOf m s) s)).2, false, false) s)

/-! ### Logic -/

/-- R200, R201, R204: ANDA, ORA, EORA: bitwise; V cleared, C unchanged. -/
def Obligations.LogicOnA : Prop :=
  ∀ (o : Src) (s : State), o.isImOr Ea.isConstantMode = true →
    Encoded (fiveModeBytes 0x9 o) (.anda o) (imOrMemory 4 5 o) ∧
    Encoded (fiveModeBytes 0xA o) (.ora o) (imOrMemory 4 5 o) ∧
    Encoded (fiveModeBytes 0xB o) (.eora o) (imOrMemory 4 5 o) ∧
    (∃ r : Byte, (∀ k, k < 8 → r.getLsbD k = (s.a.getLsbD k && (srcValue o s).getLsbD k)) ∧
      operatesOnA (.anda o) o r (s.flagI, (nz r).1, (nz r).2, false, s.flagC) s) ∧
    (∃ r : Byte, (∀ k, k < 8 → r.getLsbD k = (s.a.getLsbD k || (srcValue o s).getLsbD k)) ∧
      operatesOnA (.ora o) o r (s.flagI, (nz r).1, (nz r).2, false, s.flagC) s) ∧
    (∃ r : Byte, (∀ k, k < 8 → r.getLsbD k = (s.a.getLsbD k != (srcValue o s).getLsbD k)) ∧
      operatesOnA (.eora o) o r (s.flagI, (nz r).1, (nz r).2, false, s.flagC) s)

/-- R202, R203: ANDCC clears each flag whose data bit is 0, ORCC sets each whose data bit is 1; bits 7..5 of the data have
no effect. -/
def Obligations.AndccOrccActOnTheFlags : Prop :=
  ∀ (data : Byte) (s : State), Encoded [0x01, data] (.andcc data) 4 ∧ Encoded [0x02, data] (.orcc data) 4 ∧
    exec (.andcc data) s = .next { s with
      flagI := s.flagI && data.getLsbD 4, flagN := s.flagN && data.getLsbD 3, flagZ := s.flagZ && data.getLsbD 2,
      flagV := s.flagV && data.getLsbD 1, flagC := s.flagC && data.getLsbD 0 } ∧
    exec (.orcc data) s = .next { s with
      flagI := s.flagI || data.getLsbD 4, flagN := s.flagN || data.getLsbD 3, flagZ := s.flagZ || data.getLsbD 2,
      flagV := s.flagV || data.getLsbD 1, flagC := s.flagC || data.getLsbD 0 }

/-- R205, R206: COMA and COM: the ones' complement; V cleared, C unchanged. -/
def Obligations.ComComplements : Prop :=
  ∀ (m : Ea) (s : State), Encoded [0x0A] .coma 3 ∧ Encoded (sixModeBytes 0xA m) (.com m) 4 ∧
    rewritesA .coma complemented s ∧ rewritesCell (.com m) m complemented s

/-! ### Shift and rotate -/

/-- R210, R212, R214, R216, R218: the five shifts of A. That ROLA and RORA rotate through the carry, and V of LSRA, ROLA and
RORA from the ALU's notes, are the spec's own reading (C10, C15; log 23, DEDUCED). -/
def Obligations.ShiftsOfA : Prop :=
  ∀ s : State, Encoded [0x0F] .asra 3 ∧ Encoded [0x0B] .lsla 3 ∧ Encoded [0x0C] .lsra 3 ∧ Encoded [0x0D] .rola 3 ∧
    Encoded [0x0E] .rora 3 ∧ rewritesA .asra shiftedRightArith s ∧ rewritesA .lsla shiftedLeft s ∧
    rewritesA .lsra shiftedRight s ∧ rewritesA .rola rotatedLeft s ∧ rewritesA .rora rotatedRight s

/-- R211, R213, R215, R217, R219: the five shifts of a memory byte; their flag columns by decision D15 (log 13), the
cycles of ASR by decision D20 (log 17); that ROL and ROR rotate through the carry, and V of LSR, ROL and ROR from the ALU's
notes, are the spec's own reading (C10, C15; log 23, DEDUCED). -/
def Obligations.ShiftsOfMemory : Prop :=
  ∀ (m : Ea) (s : State), Encoded (sixModeBytes 0xF m) (.asr m) 4 ∧ Encoded (sixModeBytes 0xB m) (.lsl m) 4 ∧
    Encoded (sixModeBytes 0xC m) (.lsr m) 4 ∧ Encoded (sixModeBytes 0xD m) (.rol m) 4 ∧
    Encoded (sixModeBytes 0xE m) (.ror m) 4 ∧ rewritesCell (.asr m) m shiftedRightArith s ∧
    rewritesCell (.lsl m) m shiftedLeft s ∧ rewritesCell (.lsr m) m shiftedRight s ∧
    rewritesCell (.rol m) m rotatedLeft s ∧ rewritesCell (.ror m) m rotatedRight s

/-- R216, R218: "nine ROLA in a row restore A and C", and nine RORA, since they rotate through the carry (C10, C15; log 23,
DEDUCED). -/
def Obligations.NineRotationsRestore : Prop :=
  ∀ s : State, ∃ t u, repeated .rola 9 s = .next t ∧ repeated .rora 9 s = .next u ∧ regs t = regs s ∧
    t.flagC = s.flagC ∧ regs u = regs s ∧ u.flagC = s.flagC

/-! ### Stack and NOP -/

/-- R225 to R227: PSHA, PSHX, PSHY write the cell at the new SP; no flag. -/
def Obligations.PushesWriteBelowSP : Prop :=
  ∀ s : State, Encoded [0x10] .psha 3 ∧ Encoded [0x11] .pshx 3 ∧ Encoded [0x12] .pshy 3 ∧
    stores .psha (s.sp - 1) s.a (s.a, s.x, s.y, s.sp - 1, s.pc) s ∧
    stores .pshx (s.sp - 1) s.x (s.a, s.x, s.y, s.sp - 1, s.pc) s ∧
    stores .pshy (s.sp - 1) s.y (s.a, s.x, s.y, s.sp - 1, s.pc) s

/-- R229 to R231: PULA, PULX, PULY read the cell at the old SP; no flag. -/
def Obligations.PullsReadAtSP : Prop :=
  ∀ s : State, Encoded [0x14] .pula 3 ∧ Encoded [0x15] .pulx 3 ∧ Encoded [0x16] .puly 3 ∧
    (∃ t, exec .pula s = .next t ∧ regs t = (readValue s.sp s, s.x, s.y, s.sp + 1, s.pc) ∧ flags t = flags s ∧
      didRead s.sp s t) ∧
    (∃ t, exec .pulx s = .next t ∧ regs t = (s.a, readValue s.sp s, s.y, s.sp + 1, s.pc) ∧ flags t = flags s ∧
      didRead s.sp s t) ∧
    (∃ t, exec .puly s = .next t ∧ regs t = (s.a, s.x, readValue s.sp s, s.sp + 1, s.pc) ∧ flags t = flags s ∧
      didRead s.sp s t)

/-- R228, R232 with decisions D1 and D16 (log 1, 12): PSHCC pushes CC as a byte, bits 7..5 open; PULCC writes all five
flags from the byte at the old SP. -/
def Obligations.PshccAndPulcc : Prop :=
  ∀ s : State, Encoded [0x13] .pshcc 3 ∧ Encoded [0x17] .pulcc 3 ∧
    (∃ c t, isCC c s ∧ exec .pshcc s = .next t ∧ regs t = (s.a, s.x, s.y, s.sp - 1, s.pc) ∧ flags t = flags s ∧
      didWrite (s.sp - 1) c { s with draws := s.draws + 1 } t) ∧
    ∃ t, exec .pulcc s = .next t ∧ regs t = (s.a, s.x, s.y, s.sp + 1, s.pc) ∧
      flags t = flagsOf (readValue s.sp s) ∧ didRead s.sp s t

/-- R240: NOP does nothing beyond the fetch: a step at a NOP in memory steps PC by one, from $FF to $00, and changes no
register, flag, cell or port. -/
def Obligations.NopDoesNothing : Prop :=
  Encoded [0x00] .nop 2 ∧ (∀ s, exec .nop s = .next s) ∧
  ∀ s : State, fetches s → holdsAt s s.pc [0x00] → step s = .next { s.passBoundary with pc := s.pc + 1 }

/-- R284, R286: the source's cycle numbers are 2 to 6 and RTI alone takes 6; the undefined codes have none. -/
def Obligations.CyclesAreTwoToSix : Prop :=
  ∀ (i : Instr), (Instr.cycles i = none ↔ ∃ code, i = .undefined code) ∧
    ∀ n, Instr.cycles i = some n → 2 ≤ n ∧ n ≤ 6 ∧ (n = 6 ↔ i = .rti)

end
end

