-- ==== Sys2Proof/Laws/Flags.lean ====
section
/-!
SUPPORT. Bytes as unsigned and as signed numbers, and the carry of `add8` and `sub8` (00_scope.md R6, R7).
-/

namespace Sys2Proof.Machine

/-- Bit 7 says that the unsigned value is at least 128. -/
theorem msb_eq (a : Byte) : a.msb = decide (128 ≤ a.toNat) := by
  rw [BitVec.msb_eq_decide]

/-- The signed value from the unsigned one. -/
theorem toInt_eq (a : Byte) : a.toInt = if 128 ≤ a.toNat then (a.toNat : Int) - 256 else a.toNat := by
  have h := a.isLt
  rw [BitVec.toInt_eq_toNat_cond]
  split <;> split <;> omega

theorem toNat_ofInt8 (d : Int) : (BitVec.ofInt 8 d).toNat = (d % 256).toNat := by
  simp [BitVec.toNat_ofInt]

/-- The carry out of an addition. -/
theorem add8_c (a b : Byte) (cin : Bool) : (add8 a b cin).c = decide (256 ≤ a.toNat + b.toNat + cin.toNat) := rfl

/-- The borrow out of a subtraction. -/
theorem sub8_c (a b : Byte) (bin : Bool) : (sub8 a b bin).c = decide (a.toNat < b.toNat + bin.toNat) := by
  show decide (_ < _) = _
  rw [decide_eq_decide]
  cases bin <;> simp only [Bool.toNat_true, Bool.toNat_false] <;> omega

end Sys2Proof.Machine
end

