-- ==== Sys2Proof/Laws/Memory.lean ====
section
/-!
SUPPORT. The laws of the memory list: read after write, other cells kept, canonical form kept, canonical memories told apart
by their specified bytes. The reading laws hold for every list, canonical or not.
-/

namespace Sys2Proof.Machine

@[simp] theorem Memory.specified_nil (a : Nat) : Memory.specified [] a = none := rfl

/-- An erased cell is unspecified, the others stay. -/
theorem Memory.specified_erase (m : Memory) (a b : Nat) :
    (m.erase a).specified b = if b = a then none else m.specified b := by
  induction m with
  | nil => simp [Memory.erase]
  | cons cell rest ih =>
    obtain ⟨k, v⟩ := cell
    by_cases hk : k = a
    · by_cases hb : b = a
      · simpa [Memory.erase, hk, hb] using ih
      · simp [Memory.erase, ih, hb, Memory.specified, hk, Ne.symm hb]
    · by_cases hkb : k = b
      · simp [Memory.erase, Memory.specified, hkb, show b ≠ a from hkb ▸ hk]
      · simp [Memory.erase, hk, Memory.specified, hkb, ih]

theorem Memory.erase_lacks (m : Memory) (a : Nat) : ∀ c ∈ m.erase a, c.1 ≠ a := by
  induction m with
  | nil => simp [Memory.erase]
  | cons cell rest ih =>
    obtain ⟨k, v⟩ := cell
    by_cases hk : k = a
    · simpa [Memory.erase, hk] using ih
    · simpa [Memory.erase, hk] using ih

theorem Memory.specified_insert_of_ne (m : Memory) {a b : Nat} (v : Byte) (h : b ≠ a) :
    (m.insert a v).specified b = m.specified b := by
  induction m with
  | nil => simp [Memory.insert, Memory.specified, Ne.symm h]
  | cons cell rest ih =>
    obtain ⟨k, w⟩ := cell
    by_cases hk : k < a
    · simp [Memory.insert, Memory.specified, hk, ih]
    · simp [Memory.insert, Memory.specified, hk, Ne.symm h]

theorem Memory.specified_insert_self (m : Memory) (a : Nat) (v : Byte) (h : ∀ c ∈ m, c.1 ≠ a) :
    (m.insert a v).specified a = some v := by
  induction m with
  | nil => simp [Memory.insert, Memory.specified]
  | cons cell rest ih =>
    obtain ⟨k, w⟩ := cell
    have hka : k ≠ a := h (k, w) (by simp)
    have hr : ∀ c ∈ rest, c.1 ≠ a := fun c hc => h c (by simp [hc])
    by_cases hk : k < a
    · simp [Memory.insert, Memory.specified, hk, hka, ih hr]
    · simp [Memory.insert, Memory.specified, hk]

/-- A write specifies the cell and leaves every other cell. -/
theorem Memory.specified_write (m : Memory) (a b : Nat) (v : Byte) :
    (m.write a v).specified b = if b = a then some v else m.specified b := by
  unfold Memory.write
  by_cases hb : b = a
  · simp [hb, Memory.specified_insert_self _ _ _ (Memory.erase_lacks m a)]
  · simp [hb, Memory.specified_insert_of_ne _ _ hb, Memory.specified_erase]

theorem Memory.read_of_specified {m : Memory} {a : Nat} {v : Byte} (h : m.specified a = some v) : m.read a = v := by
  simp [Memory.read, h]

/-- An unspecified cell reads as the free content of the image. -/
theorem Memory.read_of_unspecified {m : Memory} {a : Nat} (h : m.specified a = none) : m.read a = Config.image a := by
  simp [Memory.read, h]

/-- A write gives the cell its value and leaves every other cell. -/
theorem Memory.read_write (m : Memory) (a b : Nat) (v : Byte) :
    (m.write a v).read b = if b = a then v else m.read b := by
  by_cases hb : b = a <;> simp [Memory.read, Memory.specified_write, hb]

theorem Memory.wfFrom_mono {lo lo' : Nat} {m : Memory} (h : m.wfFrom lo = true) (hl : lo' ≤ lo) :
    m.wfFrom lo' = true := by
  cases m with
  | nil => rfl
  | cons cell rest =>
    obtain ⟨k, v⟩ := cell
    simp only [Memory.wfFrom, Bool.and_eq_true, decide_eq_true_eq] at h ⊢
    exact ⟨⟨⟨by omega, h.1.1.2⟩, h.1.2⟩, h.2⟩

theorem Memory.wfFrom_erase {lo : Nat} {m : Memory} (a : Nat) (h : m.wfFrom lo = true) :
    (m.erase a).wfFrom lo = true := by
  induction m generalizing lo with
  | nil => rfl
  | cons cell rest ih =>
    obtain ⟨k, v⟩ := cell
    have h' := h
    simp only [Memory.wfFrom, Bool.and_eq_true, decide_eq_true_eq] at h'
    by_cases hk : k = a
    · simp only [Memory.erase, hk, if_true]
      exact ih (Memory.wfFrom_mono h'.2 (by omega))
    · simp only [Memory.erase, hk, if_false, Memory.wfFrom, Bool.and_eq_true, decide_eq_true_eq]
      exact ⟨h'.1, ih h'.2⟩

theorem Memory.wfFrom_insert {lo a : Nat} {m : Memory} {v : Byte} (h : m.wfFrom lo = true)
    (ha : ∀ c ∈ m, c.1 ≠ a) (hlo : lo ≤ a) (hhi : a < 256) (hp : isPortNumber a = false) :
    (m.insert a v).wfFrom lo = true := by
  induction m generalizing lo with
  | nil => simp [Memory.insert, Memory.wfFrom, hlo, hhi, hp]
  | cons cell rest ih =>
    obtain ⟨k, w⟩ := cell
    have hka : k ≠ a := ha (k, w) (by simp)
    have hr : ∀ c ∈ rest, c.1 ≠ a := fun c hc => ha c (by simp [hc])
    simp only [Memory.wfFrom, Bool.and_eq_true, decide_eq_true_eq] at h
    by_cases hk : k < a
    · simp only [Memory.insert, hk, if_true, Memory.wfFrom, Bool.and_eq_true, decide_eq_true_eq]
      exact ⟨h.1, ih h.2 hr (by omega)⟩
    · simp only [Memory.insert, hk, if_false, Memory.wfFrom, Bool.and_eq_true, decide_eq_true_eq, hp]
      exact ⟨⟨⟨hlo, hhi⟩, rfl⟩, ⟨⟨⟨by omega, h.1.1.2⟩, h.1.2⟩, h.2⟩⟩

/-- A write to an address that is no port keeps the canonical form. -/
theorem Memory.wf_write {m : Memory} {a : Nat} (v : Byte) (h : m.wf = true) (hhi : a < 256)
    (hp : isPortNumber a = false) : (m.write a v).wf = true :=
  Memory.wfFrom_insert (Memory.wfFrom_erase a h) (Memory.erase_lacks m a) (Nat.zero_le a) hhi hp

/-- Making a cell unspecified keeps the canonical form. -/
theorem Memory.wf_erase {m : Memory} (a : Nat) (h : m.wf = true) : (m.erase a).wf = true := Memory.wfFrom_erase a h

theorem Memory.wf_nil : Memory.wf [] = true := rfl

end Sys2Proof.Machine
end

