-- ==== Sys2Proof/Laws/State.lean ====
section
/-!
SUPPORT. What every update of the state does to every field: one lemma per field per update, so that no later proof unfolds
a record update.
-/

namespace Sys2Proof.Machine

variable (s : State)

@[simp] theorem State.setA_a (v : Byte) : (s.setA v).a = v := rfl
@[simp] theorem State.setA_x (v : Byte) : (s.setA v).x = s.x := rfl
@[simp] theorem State.setA_y (v : Byte) : (s.setA v).y = s.y := rfl
@[simp] theorem State.setA_sp (v : Byte) : (s.setA v).sp = s.sp := rfl
@[simp] theorem State.setA_pc (v : Byte) : (s.setA v).pc = s.pc := rfl
@[simp] theorem State.setA_flagI (v : Byte) : (s.setA v).flagI = s.flagI := rfl
@[simp] theorem State.setA_flagN (v : Byte) : (s.setA v).flagN = s.flagN := rfl
@[simp] theorem State.setA_flagZ (v : Byte) : (s.setA v).flagZ = s.flagZ := rfl
@[simp] theorem State.setA_flagV (v : Byte) : (s.setA v).flagV = s.flagV := rfl
@[simp] theorem State.setA_flagC (v : Byte) : (s.setA v).flagC = s.flagC := rfl
@[simp] theorem State.setA_mem (v : Byte) : (s.setA v).mem = s.mem := rfl
@[simp] theorem State.setA_boundary (v : Byte) : (s.setA v).boundary = s.boundary := rfl
@[simp] theorem State.setA_inFB (v : Byte) : (s.setA v).inFB = s.inFB := rfl
@[simp] theorem State.setA_inFC (v : Byte) : (s.setA v).inFC = s.inFC := rfl
@[simp] theorem State.setA_events (v : Byte) : (s.setA v).events = s.events := rfl
@[simp] theorem State.setA_draws (v : Byte) : (s.setA v).draws = s.draws := rfl

@[simp] theorem State.setX_a (v : Byte) : (s.setX v).a = s.a := rfl
@[simp] theorem State.setX_x (v : Byte) : (s.setX v).x = v := rfl
@[simp] theorem State.setX_y (v : Byte) : (s.setX v).y = s.y := rfl
@[simp] theorem State.setX_sp (v : Byte) : (s.setX v).sp = s.sp := rfl
@[simp] theorem State.setX_pc (v : Byte) : (s.setX v).pc = s.pc := rfl
@[simp] theorem State.setX_flagI (v : Byte) : (s.setX v).flagI = s.flagI := rfl
@[simp] theorem State.setX_flagN (v : Byte) : (s.setX v).flagN = s.flagN := rfl
@[simp] theorem State.setX_flagZ (v : Byte) : (s.setX v).flagZ = s.flagZ := rfl
@[simp] theorem State.setX_flagV (v : Byte) : (s.setX v).flagV = s.flagV := rfl
@[simp] theorem State.setX_flagC (v : Byte) : (s.setX v).flagC = s.flagC := rfl
@[simp] theorem State.setX_mem (v : Byte) : (s.setX v).mem = s.mem := rfl
@[simp] theorem State.setX_boundary (v : Byte) : (s.setX v).boundary = s.boundary := rfl
@[simp] theorem State.setX_inFB (v : Byte) : (s.setX v).inFB = s.inFB := rfl
@[simp] theorem State.setX_inFC (v : Byte) : (s.setX v).inFC = s.inFC := rfl
@[simp] theorem State.setX_events (v : Byte) : (s.setX v).events = s.events := rfl
@[simp] theorem State.setX_draws (v : Byte) : (s.setX v).draws = s.draws := rfl

@[simp] theorem State.setY_a (v : Byte) : (s.setY v).a = s.a := rfl
@[simp] theorem State.setY_x (v : Byte) : (s.setY v).x = s.x := rfl
@[simp] theorem State.setY_y (v : Byte) : (s.setY v).y = v := rfl
@[simp] theorem State.setY_sp (v : Byte) : (s.setY v).sp = s.sp := rfl
@[simp] theorem State.setY_pc (v : Byte) : (s.setY v).pc = s.pc := rfl
@[simp] theorem State.setY_flagI (v : Byte) : (s.setY v).flagI = s.flagI := rfl
@[simp] theorem State.setY_flagN (v : Byte) : (s.setY v).flagN = s.flagN := rfl
@[simp] theorem State.setY_flagZ (v : Byte) : (s.setY v).flagZ = s.flagZ := rfl
@[simp] theorem State.setY_flagV (v : Byte) : (s.setY v).flagV = s.flagV := rfl
@[simp] theorem State.setY_flagC (v : Byte) : (s.setY v).flagC = s.flagC := rfl
@[simp] theorem State.setY_mem (v : Byte) : (s.setY v).mem = s.mem := rfl
@[simp] theorem State.setY_boundary (v : Byte) : (s.setY v).boundary = s.boundary := rfl
@[simp] theorem State.setY_inFB (v : Byte) : (s.setY v).inFB = s.inFB := rfl
@[simp] theorem State.setY_inFC (v : Byte) : (s.setY v).inFC = s.inFC := rfl
@[simp] theorem State.setY_events (v : Byte) : (s.setY v).events = s.events := rfl
@[simp] theorem State.setY_draws (v : Byte) : (s.setY v).draws = s.draws := rfl

@[simp] theorem State.setSP_a (v : Byte) : (s.setSP v).a = s.a := rfl
@[simp] theorem State.setSP_x (v : Byte) : (s.setSP v).x = s.x := rfl
@[simp] theorem State.setSP_y (v : Byte) : (s.setSP v).y = s.y := rfl
@[simp] theorem State.setSP_sp (v : Byte) : (s.setSP v).sp = v := rfl
@[simp] theorem State.setSP_pc (v : Byte) : (s.setSP v).pc = s.pc := rfl
@[simp] theorem State.setSP_flagI (v : Byte) : (s.setSP v).flagI = s.flagI := rfl
@[simp] theorem State.setSP_flagN (v : Byte) : (s.setSP v).flagN = s.flagN := rfl
@[simp] theorem State.setSP_flagZ (v : Byte) : (s.setSP v).flagZ = s.flagZ := rfl
@[simp] theorem State.setSP_flagV (v : Byte) : (s.setSP v).flagV = s.flagV := rfl
@[simp] theorem State.setSP_flagC (v : Byte) : (s.setSP v).flagC = s.flagC := rfl
@[simp] theorem State.setSP_mem (v : Byte) : (s.setSP v).mem = s.mem := rfl
@[simp] theorem State.setSP_boundary (v : Byte) : (s.setSP v).boundary = s.boundary := rfl
@[simp] theorem State.setSP_inFB (v : Byte) : (s.setSP v).inFB = s.inFB := rfl
@[simp] theorem State.setSP_inFC (v : Byte) : (s.setSP v).inFC = s.inFC := rfl
@[simp] theorem State.setSP_events (v : Byte) : (s.setSP v).events = s.events := rfl
@[simp] theorem State.setSP_draws (v : Byte) : (s.setSP v).draws = s.draws := rfl

@[simp] theorem State.setPC_a (v : Byte) : (s.setPC v).a = s.a := rfl
@[simp] theorem State.setPC_x (v : Byte) : (s.setPC v).x = s.x := rfl
@[simp] theorem State.setPC_y (v : Byte) : (s.setPC v).y = s.y := rfl
@[simp] theorem State.setPC_sp (v : Byte) : (s.setPC v).sp = s.sp := rfl
@[simp] theorem State.setPC_pc (v : Byte) : (s.setPC v).pc = v := rfl
@[simp] theorem State.setPC_flagI (v : Byte) : (s.setPC v).flagI = s.flagI := rfl
@[simp] theorem State.setPC_flagN (v : Byte) : (s.setPC v).flagN = s.flagN := rfl
@[simp] theorem State.setPC_flagZ (v : Byte) : (s.setPC v).flagZ = s.flagZ := rfl
@[simp] theorem State.setPC_flagV (v : Byte) : (s.setPC v).flagV = s.flagV := rfl
@[simp] theorem State.setPC_flagC (v : Byte) : (s.setPC v).flagC = s.flagC := rfl
@[simp] theorem State.setPC_mem (v : Byte) : (s.setPC v).mem = s.mem := rfl
@[simp] theorem State.setPC_boundary (v : Byte) : (s.setPC v).boundary = s.boundary := rfl
@[simp] theorem State.setPC_inFB (v : Byte) : (s.setPC v).inFB = s.inFB := rfl
@[simp] theorem State.setPC_inFC (v : Byte) : (s.setPC v).inFC = s.inFC := rfl
@[simp] theorem State.setPC_events (v : Byte) : (s.setPC v).events = s.events := rfl
@[simp] theorem State.setPC_draws (v : Byte) : (s.setPC v).draws = s.draws := rfl

@[simp] theorem State.setMem_a (m : Memory) : (s.setMem m).a = s.a := rfl
@[simp] theorem State.setMem_x (m : Memory) : (s.setMem m).x = s.x := rfl
@[simp] theorem State.setMem_y (m : Memory) : (s.setMem m).y = s.y := rfl
@[simp] theorem State.setMem_sp (m : Memory) : (s.setMem m).sp = s.sp := rfl
@[simp] theorem State.setMem_pc (m : Memory) : (s.setMem m).pc = s.pc := rfl
@[simp] theorem State.setMem_flagI (m : Memory) : (s.setMem m).flagI = s.flagI := rfl
@[simp] theorem State.setMem_flagN (m : Memory) : (s.setMem m).flagN = s.flagN := rfl
@[simp] theorem State.setMem_flagZ (m : Memory) : (s.setMem m).flagZ = s.flagZ := rfl
@[simp] theorem State.setMem_flagV (m : Memory) : (s.setMem m).flagV = s.flagV := rfl
@[simp] theorem State.setMem_flagC (m : Memory) : (s.setMem m).flagC = s.flagC := rfl
@[simp] theorem State.setMem_mem (m : Memory) : (s.setMem m).mem = m := rfl
@[simp] theorem State.setMem_boundary (m : Memory) : (s.setMem m).boundary = s.boundary := rfl
@[simp] theorem State.setMem_inFB (m : Memory) : (s.setMem m).inFB = s.inFB := rfl
@[simp] theorem State.setMem_inFC (m : Memory) : (s.setMem m).inFC = s.inFC := rfl
@[simp] theorem State.setMem_events (m : Memory) : (s.setMem m).events = s.events := rfl
@[simp] theorem State.setMem_draws (m : Memory) : (s.setMem m).draws = s.draws := rfl

@[simp] theorem State.setI_a (i : Bool) : (s.setI i).a = s.a := rfl
@[simp] theorem State.setI_x (i : Bool) : (s.setI i).x = s.x := rfl
@[simp] theorem State.setI_y (i : Bool) : (s.setI i).y = s.y := rfl
@[simp] theorem State.setI_sp (i : Bool) : (s.setI i).sp = s.sp := rfl
@[simp] theorem State.setI_pc (i : Bool) : (s.setI i).pc = s.pc := rfl
@[simp] theorem State.setI_flagI (i : Bool) : (s.setI i).flagI = i := rfl
@[simp] theorem State.setI_flagN (i : Bool) : (s.setI i).flagN = s.flagN := rfl
@[simp] theorem State.setI_flagZ (i : Bool) : (s.setI i).flagZ = s.flagZ := rfl
@[simp] theorem State.setI_flagV (i : Bool) : (s.setI i).flagV = s.flagV := rfl
@[simp] theorem State.setI_flagC (i : Bool) : (s.setI i).flagC = s.flagC := rfl
@[simp] theorem State.setI_mem (i : Bool) : (s.setI i).mem = s.mem := rfl
@[simp] theorem State.setI_boundary (i : Bool) : (s.setI i).boundary = s.boundary := rfl
@[simp] theorem State.setI_inFB (i : Bool) : (s.setI i).inFB = s.inFB := rfl
@[simp] theorem State.setI_inFC (i : Bool) : (s.setI i).inFC = s.inFC := rfl
@[simp] theorem State.setI_events (i : Bool) : (s.setI i).events = s.events := rfl
@[simp] theorem State.setI_draws (i : Bool) : (s.setI i).draws = s.draws := rfl

@[simp] theorem State.setNZV_a (n z v : Bool) : (s.setNZV n z v).a = s.a := rfl
@[simp] theorem State.setNZV_x (n z v : Bool) : (s.setNZV n z v).x = s.x := rfl
@[simp] theorem State.setNZV_y (n z v : Bool) : (s.setNZV n z v).y = s.y := rfl
@[simp] theorem State.setNZV_sp (n z v : Bool) : (s.setNZV n z v).sp = s.sp := rfl
@[simp] theorem State.setNZV_pc (n z v : Bool) : (s.setNZV n z v).pc = s.pc := rfl
@[simp] theorem State.setNZV_flagI (n z v : Bool) : (s.setNZV n z v).flagI = s.flagI := rfl
@[simp] theorem State.setNZV_flagN (n z v : Bool) : (s.setNZV n z v).flagN = n := rfl
@[simp] theorem State.setNZV_flagZ (n z v : Bool) : (s.setNZV n z v).flagZ = z := rfl
@[simp] theorem State.setNZV_flagV (n z v : Bool) : (s.setNZV n z v).flagV = v := rfl
@[simp] theorem State.setNZV_flagC (n z v : Bool) : (s.setNZV n z v).flagC = s.flagC := rfl
@[simp] theorem State.setNZV_mem (n z v : Bool) : (s.setNZV n z v).mem = s.mem := rfl
@[simp] theorem State.setNZV_boundary (n z v : Bool) : (s.setNZV n z v).boundary = s.boundary := rfl
@[simp] theorem State.setNZV_inFB (n z v : Bool) : (s.setNZV n z v).inFB = s.inFB := rfl
@[simp] theorem State.setNZV_inFC (n z v : Bool) : (s.setNZV n z v).inFC = s.inFC := rfl
@[simp] theorem State.setNZV_events (n z v : Bool) : (s.setNZV n z v).events = s.events := rfl
@[simp] theorem State.setNZV_draws (n z v : Bool) : (s.setNZV n z v).draws = s.draws := rfl

@[simp] theorem State.setNZVC_a (n z v c : Bool) : (s.setNZVC n z v c).a = s.a := rfl
@[simp] theorem State.setNZVC_x (n z v c : Bool) : (s.setNZVC n z v c).x = s.x := rfl
@[simp] theorem State.setNZVC_y (n z v c : Bool) : (s.setNZVC n z v c).y = s.y := rfl
@[simp] theorem State.setNZVC_sp (n z v c : Bool) : (s.setNZVC n z v c).sp = s.sp := rfl
@[simp] theorem State.setNZVC_pc (n z v c : Bool) : (s.setNZVC n z v c).pc = s.pc := rfl
@[simp] theorem State.setNZVC_flagI (n z v c : Bool) : (s.setNZVC n z v c).flagI = s.flagI := rfl
@[simp] theorem State.setNZVC_flagN (n z v c : Bool) : (s.setNZVC n z v c).flagN = n := rfl
@[simp] theorem State.setNZVC_flagZ (n z v c : Bool) : (s.setNZVC n z v c).flagZ = z := rfl
@[simp] theorem State.setNZVC_flagV (n z v c : Bool) : (s.setNZVC n z v c).flagV = v := rfl
@[simp] theorem State.setNZVC_flagC (n z v c : Bool) : (s.setNZVC n z v c).flagC = c := rfl
@[simp] theorem State.setNZVC_mem (n z v c : Bool) : (s.setNZVC n z v c).mem = s.mem := rfl
@[simp] theorem State.setNZVC_boundary (n z v c : Bool) : (s.setNZVC n z v c).boundary = s.boundary := rfl
@[simp] theorem State.setNZVC_inFB (n z v c : Bool) : (s.setNZVC n z v c).inFB = s.inFB := rfl
@[simp] theorem State.setNZVC_inFC (n z v c : Bool) : (s.setNZVC n z v c).inFC = s.inFC := rfl
@[simp] theorem State.setNZVC_events (n z v c : Bool) : (s.setNZVC n z v c).events = s.events := rfl
@[simp] theorem State.setNZVC_draws (n z v c : Bool) : (s.setNZVC n z v c).draws = s.draws := rfl

@[simp] theorem State.record_a (e : PortEvent) : (s.record e).a = s.a := rfl
@[simp] theorem State.record_x (e : PortEvent) : (s.record e).x = s.x := rfl
@[simp] theorem State.record_y (e : PortEvent) : (s.record e).y = s.y := rfl
@[simp] theorem State.record_sp (e : PortEvent) : (s.record e).sp = s.sp := rfl
@[simp] theorem State.record_pc (e : PortEvent) : (s.record e).pc = s.pc := rfl
@[simp] theorem State.record_flagI (e : PortEvent) : (s.record e).flagI = s.flagI := rfl
@[simp] theorem State.record_flagN (e : PortEvent) : (s.record e).flagN = s.flagN := rfl
@[simp] theorem State.record_flagZ (e : PortEvent) : (s.record e).flagZ = s.flagZ := rfl
@[simp] theorem State.record_flagV (e : PortEvent) : (s.record e).flagV = s.flagV := rfl
@[simp] theorem State.record_flagC (e : PortEvent) : (s.record e).flagC = s.flagC := rfl
@[simp] theorem State.record_mem (e : PortEvent) : (s.record e).mem = s.mem := rfl
@[simp] theorem State.record_boundary (e : PortEvent) : (s.record e).boundary = s.boundary := rfl
@[simp] theorem State.record_inFB (e : PortEvent) : (s.record e).inFB = s.inFB := rfl
@[simp] theorem State.record_inFC (e : PortEvent) : (s.record e).inFC = s.inFC := rfl
@[simp] theorem State.record_events (e : PortEvent) : (s.record e).events = s.events ++ [e] := rfl
@[simp] theorem State.record_draws (e : PortEvent) : (s.record e).draws = s.draws := rfl

@[simp] theorem State.countDraw_a : s.countDraw.a = s.a := rfl
@[simp] theorem State.countDraw_x : s.countDraw.x = s.x := rfl
@[simp] theorem State.countDraw_y : s.countDraw.y = s.y := rfl
@[simp] theorem State.countDraw_sp : s.countDraw.sp = s.sp := rfl
@[simp] theorem State.countDraw_pc : s.countDraw.pc = s.pc := rfl
@[simp] theorem State.countDraw_flagI : s.countDraw.flagI = s.flagI := rfl
@[simp] theorem State.countDraw_flagN : s.countDraw.flagN = s.flagN := rfl
@[simp] theorem State.countDraw_flagZ : s.countDraw.flagZ = s.flagZ := rfl
@[simp] theorem State.countDraw_flagV : s.countDraw.flagV = s.flagV := rfl
@[simp] theorem State.countDraw_flagC : s.countDraw.flagC = s.flagC := rfl
@[simp] theorem State.countDraw_mem : s.countDraw.mem = s.mem := rfl
@[simp] theorem State.countDraw_boundary : s.countDraw.boundary = s.boundary := rfl
@[simp] theorem State.countDraw_inFB : s.countDraw.inFB = s.inFB := rfl
@[simp] theorem State.countDraw_inFC : s.countDraw.inFC = s.inFC := rfl
@[simp] theorem State.countDraw_events : s.countDraw.events = s.events := rfl
@[simp] theorem State.countDraw_draws : s.countDraw.draws = s.draws + 1 := rfl

@[simp] theorem State.passBoundary_a : s.passBoundary.a = s.a := rfl
@[simp] theorem State.passBoundary_x : s.passBoundary.x = s.x := rfl
@[simp] theorem State.passBoundary_y : s.passBoundary.y = s.y := rfl
@[simp] theorem State.passBoundary_sp : s.passBoundary.sp = s.sp := rfl
@[simp] theorem State.passBoundary_pc : s.passBoundary.pc = s.pc := rfl
@[simp] theorem State.passBoundary_flagI : s.passBoundary.flagI = s.flagI := rfl
@[simp] theorem State.passBoundary_flagN : s.passBoundary.flagN = s.flagN := rfl
@[simp] theorem State.passBoundary_flagZ : s.passBoundary.flagZ = s.flagZ := rfl
@[simp] theorem State.passBoundary_flagV : s.passBoundary.flagV = s.flagV := rfl
@[simp] theorem State.passBoundary_flagC : s.passBoundary.flagC = s.flagC := rfl
@[simp] theorem State.passBoundary_mem : s.passBoundary.mem = s.mem := rfl
@[simp] theorem State.passBoundary_boundary : s.passBoundary.boundary = s.boundary.tail := rfl
@[simp] theorem State.passBoundary_inFB : s.passBoundary.inFB = s.inFB := rfl
@[simp] theorem State.passBoundary_inFC : s.passBoundary.inFC = s.inFC := rfl
@[simp] theorem State.passBoundary_events : s.passBoundary.events = s.events := rfl
@[simp] theorem State.passBoundary_draws : s.passBoundary.draws = s.draws + 1 := rfl

@[simp] theorem State.setFlags_a (f : Result) : (s.setFlags f).a = s.a := rfl
@[simp] theorem State.setFlags_x (f : Result) : (s.setFlags f).x = s.x := rfl
@[simp] theorem State.setFlags_y (f : Result) : (s.setFlags f).y = s.y := rfl
@[simp] theorem State.setFlags_sp (f : Result) : (s.setFlags f).sp = s.sp := rfl
@[simp] theorem State.setFlags_pc (f : Result) : (s.setFlags f).pc = s.pc := rfl
@[simp] theorem State.setFlags_flagI (f : Result) : (s.setFlags f).flagI = s.flagI := rfl
@[simp] theorem State.setFlags_flagN (f : Result) : (s.setFlags f).flagN = f.n := rfl
@[simp] theorem State.setFlags_flagZ (f : Result) : (s.setFlags f).flagZ = f.z := rfl
@[simp] theorem State.setFlags_flagV (f : Result) : (s.setFlags f).flagV = f.v := rfl
@[simp] theorem State.setFlags_flagC (f : Result) : (s.setFlags f).flagC = f.c := rfl
@[simp] theorem State.setFlags_mem (f : Result) : (s.setFlags f).mem = s.mem := rfl
@[simp] theorem State.setFlags_boundary (f : Result) : (s.setFlags f).boundary = s.boundary := rfl
@[simp] theorem State.setFlags_inFB (f : Result) : (s.setFlags f).inFB = s.inFB := rfl
@[simp] theorem State.setFlags_inFC (f : Result) : (s.setFlags f).inFC = s.inFC := rfl
@[simp] theorem State.setFlags_events (f : Result) : (s.setFlags f).events = s.events := rfl
@[simp] theorem State.setFlags_draws (f : Result) : (s.setFlags f).draws = s.draws := rfl

@[simp] theorem State.setLoadFlags_a (v : Byte) : (s.setLoadFlags v).a = s.a := rfl
@[simp] theorem State.setLoadFlags_x (v : Byte) : (s.setLoadFlags v).x = s.x := rfl
@[simp] theorem State.setLoadFlags_y (v : Byte) : (s.setLoadFlags v).y = s.y := rfl
@[simp] theorem State.setLoadFlags_sp (v : Byte) : (s.setLoadFlags v).sp = s.sp := rfl
@[simp] theorem State.setLoadFlags_pc (v : Byte) : (s.setLoadFlags v).pc = s.pc := rfl
@[simp] theorem State.setLoadFlags_flagI (v : Byte) : (s.setLoadFlags v).flagI = s.flagI := rfl
@[simp] theorem State.setLoadFlags_flagN (v : Byte) : (s.setLoadFlags v).flagN = negative v := rfl
@[simp] theorem State.setLoadFlags_flagZ (v : Byte) : (s.setLoadFlags v).flagZ = isZero v := rfl
@[simp] theorem State.setLoadFlags_flagV (v : Byte) : (s.setLoadFlags v).flagV = false := rfl
@[simp] theorem State.setLoadFlags_flagC (v : Byte) : (s.setLoadFlags v).flagC = s.flagC := rfl
@[simp] theorem State.setLoadFlags_mem (v : Byte) : (s.setLoadFlags v).mem = s.mem := rfl
@[simp] theorem State.setLoadFlags_boundary (v : Byte) : (s.setLoadFlags v).boundary = s.boundary := rfl
@[simp] theorem State.setLoadFlags_inFB (v : Byte) : (s.setLoadFlags v).inFB = s.inFB := rfl
@[simp] theorem State.setLoadFlags_inFC (v : Byte) : (s.setLoadFlags v).inFC = s.inFC := rfl
@[simp] theorem State.setLoadFlags_events (v : Byte) : (s.setLoadFlags v).events = s.events := rfl
@[simp] theorem State.setLoadFlags_draws (v : Byte) : (s.setLoadFlags v).draws = s.draws := rfl

@[simp] theorem State.setScheduled_a (p : Port) (l : List Byte) : (s.setScheduled p l).a = s.a := by cases p <;> rfl
@[simp] theorem State.setScheduled_x (p : Port) (l : List Byte) : (s.setScheduled p l).x = s.x := by cases p <;> rfl
@[simp] theorem State.setScheduled_y (p : Port) (l : List Byte) : (s.setScheduled p l).y = s.y := by cases p <;> rfl
@[simp] theorem State.setScheduled_sp (p : Port) (l : List Byte) : (s.setScheduled p l).sp = s.sp := by cases p <;> rfl
@[simp] theorem State.setScheduled_pc (p : Port) (l : List Byte) : (s.setScheduled p l).pc = s.pc := by cases p <;> rfl
@[simp] theorem State.setScheduled_flagI (p : Port) (l : List Byte) : (s.setScheduled p l).flagI = s.flagI := by cases p <;> rfl
@[simp] theorem State.setScheduled_flagN (p : Port) (l : List Byte) : (s.setScheduled p l).flagN = s.flagN := by cases p <;> rfl
@[simp] theorem State.setScheduled_flagZ (p : Port) (l : List Byte) : (s.setScheduled p l).flagZ = s.flagZ := by cases p <;> rfl
@[simp] theorem State.setScheduled_flagV (p : Port) (l : List Byte) : (s.setScheduled p l).flagV = s.flagV := by cases p <;> rfl
@[simp] theorem State.setScheduled_flagC (p : Port) (l : List Byte) : (s.setScheduled p l).flagC = s.flagC := by cases p <;> rfl
@[simp] theorem State.setScheduled_mem (p : Port) (l : List Byte) : (s.setScheduled p l).mem = s.mem := by cases p <;> rfl
@[simp] theorem State.setScheduled_boundary (p : Port) (l : List Byte) : (s.setScheduled p l).boundary = s.boundary := by cases p <;> rfl
@[simp] theorem State.setScheduled_events (p : Port) (l : List Byte) : (s.setScheduled p l).events = s.events := by cases p <;> rfl
@[simp] theorem State.setScheduled_draws (p : Port) (l : List Byte) : (s.setScheduled p l).draws = s.draws := by cases p <;> rfl

@[simp] theorem State.setIndex_a (r : Index) (v : Byte) : (s.setIndex r v).a = s.a := by cases r <;> rfl
@[simp] theorem State.setIndex_sp (r : Index) (v : Byte) : (s.setIndex r v).sp = s.sp := by cases r <;> rfl
@[simp] theorem State.setIndex_pc (r : Index) (v : Byte) : (s.setIndex r v).pc = s.pc := by cases r <;> rfl
@[simp] theorem State.setIndex_flagI (r : Index) (v : Byte) : (s.setIndex r v).flagI = s.flagI := by cases r <;> rfl
@[simp] theorem State.setIndex_flagN (r : Index) (v : Byte) : (s.setIndex r v).flagN = s.flagN := by cases r <;> rfl
@[simp] theorem State.setIndex_flagZ (r : Index) (v : Byte) : (s.setIndex r v).flagZ = s.flagZ := by cases r <;> rfl
@[simp] theorem State.setIndex_flagV (r : Index) (v : Byte) : (s.setIndex r v).flagV = s.flagV := by cases r <;> rfl
@[simp] theorem State.setIndex_flagC (r : Index) (v : Byte) : (s.setIndex r v).flagC = s.flagC := by cases r <;> rfl
@[simp] theorem State.setIndex_mem (r : Index) (v : Byte) : (s.setIndex r v).mem = s.mem := by cases r <;> rfl
@[simp] theorem State.setIndex_boundary (r : Index) (v : Byte) : (s.setIndex r v).boundary = s.boundary := by cases r <;> rfl
@[simp] theorem State.setIndex_inFB (r : Index) (v : Byte) : (s.setIndex r v).inFB = s.inFB := by cases r <;> rfl
@[simp] theorem State.setIndex_inFC (r : Index) (v : Byte) : (s.setIndex r v).inFC = s.inFC := by cases r <;> rfl
@[simp] theorem State.setIndex_events (r : Index) (v : Byte) : (s.setIndex r v).events = s.events := by cases r <;> rfl
@[simp] theorem State.setIndex_draws (r : Index) (v : Byte) : (s.setIndex r v).draws = s.draws := by cases r <;> rfl

@[simp] theorem State.scheduled_setScheduled (p q : Port) (l : List Byte) :
    (s.setScheduled p l).scheduled q = if q = p then l else s.scheduled q := by
  cases p <;> cases q <;> rfl

@[simp] theorem State.index_setIndex (r q : Index) (v : Byte) :
    (s.setIndex r v).index q = if q = r then v else s.index q := by
  cases r <;> cases q <;> rfl

end Sys2Proof.Machine
end

