-- ==== Sys2Proof/Laws/Ops.lean ====
section
/-!
SUPPORT. What each shared operation can do, said once: the reads and writes of memory and ports, the stack, CC as a byte,
the exception entry and the boundary.
-/

namespace Sys2Proof.Machine

/-! ### Ports and cells -/

theorem portOf_eq_none_iff (adr : Addr) : portOf adr = none ↔ adr ≠ 0xFB ∧ adr ≠ 0xFC := by
  unfold portOf
  split
  · simp_all
  · split <;> simp_all

@[simp] theorem portOf_portAddress (p : Port) : portOf (portAddress p) = some p := by
  cases p <;> decide

/-- The canonical form's test for a port is `portOf`. -/
theorem isPortNumber_toNat (adr : Addr) : isPortNumber adr.toNat = (portOf adr).isSome := by
  by_cases h1 : adr = 0xFB
  · subst h1; decide
  · by_cases h2 : adr = 0xFC
    · subst h2; decide
    · have n1 : adr.toNat ≠ 0xFB := fun h => h1 (BitVec.eq_of_toNat_eq h)
      have n2 : adr.toNat ≠ 0xFC := fun h => h2 (BitVec.eq_of_toNat_eq h)
      rw [portOf, if_neg h1, if_neg h2]
      simp [isPortNumber, n1, n2]

theorem readValue_of_cell {adr : Addr} (h : portOf adr = none) (s : State) : readValue adr s = s.peek adr := by
  simp [readValue, h]

theorem afterRead_of_cell {adr : Addr} (h : portOf adr = none) (s : State) : afterRead adr s = s := by
  simp [afterRead, h]

theorem memWrite_of_cell {adr : Addr} (h : portOf adr = none) (v : Byte) (s : State) :
    memWrite adr v s = s.setMem (s.mem.write adr.toNat v) := by
  simp [memWrite, h]

theorem memWrite_of_port {adr : Addr} {p : Port} (h : portOf adr = some p) (v : Byte) (s : State) :
    memWrite adr v s = s.record (.output p v) := by
  simp [memWrite, h]

theorem afterRead_of_port {adr : Addr} {p : Port} (h : portOf adr = some p) (s : State) :
    afterRead adr s = s.takeInput p := by
  simp [afterRead, h]

/-- A cell reads as the byte specified for it. -/
theorem peek_of_specified {s : State} {adr : Addr} {v : Byte} (h : s.mem.specified adr.toNat = some v) : s.peek adr = v :=
  Memory.read_of_specified h

/-- A cell in which nothing was placed or written reads as the free content of the image. -/
theorem peek_of_unspecified {s : State} {adr : Addr} (h : s.mem.specified adr.toNat = none) :
    s.peek adr = Config.image adr.toNat := Memory.read_of_unspecified h

/-- What every cell holds after a write: the written byte in its cell, unless the address is a port. -/
theorem peek_memWrite (adr b : Addr) (v : Byte) (s : State) :
    (memWrite adr v s).peek b = if b = adr ∧ portOf adr = none then v else s.peek b := by
  cases h : portOf adr with
  | none =>
    by_cases hb : b = adr
    · simp [memWrite, h, State.peek, Memory.read_write, hb]
    · have : b.toNat ≠ adr.toNat := fun e => hb (BitVec.eq_of_toNat_eq e)
      simp [memWrite, h, State.peek, Memory.read_write, hb, this]
  | some p => simp [memWrite, h, State.peek]

/-! A read changes no register, flag or cell. -/

@[simp] theorem takeInput_a (p : Port) (s : State) : (s.takeInput p).a = s.a := by simp [State.takeInput]
@[simp] theorem takeInput_x (p : Port) (s : State) : (s.takeInput p).x = s.x := by simp [State.takeInput]
@[simp] theorem takeInput_y (p : Port) (s : State) : (s.takeInput p).y = s.y := by simp [State.takeInput]
@[simp] theorem takeInput_sp (p : Port) (s : State) : (s.takeInput p).sp = s.sp := by simp [State.takeInput]
@[simp] theorem takeInput_pc (p : Port) (s : State) : (s.takeInput p).pc = s.pc := by simp [State.takeInput]
@[simp] theorem takeInput_flagI (p : Port) (s : State) : (s.takeInput p).flagI = s.flagI := by simp [State.takeInput]
@[simp] theorem takeInput_flagN (p : Port) (s : State) : (s.takeInput p).flagN = s.flagN := by simp [State.takeInput]
@[simp] theorem takeInput_flagZ (p : Port) (s : State) : (s.takeInput p).flagZ = s.flagZ := by simp [State.takeInput]
@[simp] theorem takeInput_flagV (p : Port) (s : State) : (s.takeInput p).flagV = s.flagV := by simp [State.takeInput]
@[simp] theorem takeInput_flagC (p : Port) (s : State) : (s.takeInput p).flagC = s.flagC := by simp [State.takeInput]
@[simp] theorem takeInput_mem (p : Port) (s : State) : (s.takeInput p).mem = s.mem := by simp [State.takeInput]
@[simp] theorem takeInput_boundary (p : Port) (s : State) : (s.takeInput p).boundary = s.boundary := by simp [State.takeInput]

@[simp] theorem afterRead_a (adr : Addr) (s : State) : (afterRead adr s).a = s.a := by
  unfold afterRead; split <;> simp
@[simp] theorem afterRead_x (adr : Addr) (s : State) : (afterRead adr s).x = s.x := by
  unfold afterRead; split <;> simp
@[simp] theorem afterRead_y (adr : Addr) (s : State) : (afterRead adr s).y = s.y := by
  unfold afterRead; split <;> simp
@[simp] theorem afterRead_sp (adr : Addr) (s : State) : (afterRead adr s).sp = s.sp := by
  unfold afterRead; split <;> simp
@[simp] theorem afterRead_pc (adr : Addr) (s : State) : (afterRead adr s).pc = s.pc := by
  unfold afterRead; split <;> simp
@[simp] theorem afterRead_flagI (adr : Addr) (s : State) : (afterRead adr s).flagI = s.flagI := by
  unfold afterRead; split <;> simp
@[simp] theorem afterRead_flagN (adr : Addr) (s : State) : (afterRead adr s).flagN = s.flagN := by
  unfold afterRead; split <;> simp
@[simp] theorem afterRead_flagZ (adr : Addr) (s : State) : (afterRead adr s).flagZ = s.flagZ := by
  unfold afterRead; split <;> simp
@[simp] theorem afterRead_flagV (adr : Addr) (s : State) : (afterRead adr s).flagV = s.flagV := by
  unfold afterRead; split <;> simp
@[simp] theorem afterRead_flagC (adr : Addr) (s : State) : (afterRead adr s).flagC = s.flagC := by
  unfold afterRead; split <;> simp
@[simp] theorem afterRead_mem (adr : Addr) (s : State) : (afterRead adr s).mem = s.mem := by
  unfold afterRead; split <;> simp
@[simp] theorem afterRead_boundary (adr : Addr) (s : State) : (afterRead adr s).boundary = s.boundary := by
  unfold afterRead; split <;> simp

@[simp] theorem peek_afterRead (adr b : Addr) (s : State) : (afterRead adr s).peek b = s.peek b := by
  simp [State.peek]

/-! A write changes no register, flag or input. -/

@[simp] theorem memWrite_a (adr : Addr) (v : Byte) (s : State) : (memWrite adr v s).a = s.a := by
  unfold memWrite; split <;> rfl
@[simp] theorem memWrite_x (adr : Addr) (v : Byte) (s : State) : (memWrite adr v s).x = s.x := by
  unfold memWrite; split <;> rfl
@[simp] theorem memWrite_y (adr : Addr) (v : Byte) (s : State) : (memWrite adr v s).y = s.y := by
  unfold memWrite; split <;> rfl
@[simp] theorem memWrite_sp (adr : Addr) (v : Byte) (s : State) : (memWrite adr v s).sp = s.sp := by
  unfold memWrite; split <;> rfl
@[simp] theorem memWrite_pc (adr : Addr) (v : Byte) (s : State) : (memWrite adr v s).pc = s.pc := by
  unfold memWrite; split <;> rfl
@[simp] theorem memWrite_flagI (adr : Addr) (v : Byte) (s : State) : (memWrite adr v s).flagI = s.flagI := by
  unfold memWrite; split <;> rfl
@[simp] theorem memWrite_flagN (adr : Addr) (v : Byte) (s : State) : (memWrite adr v s).flagN = s.flagN := by
  unfold memWrite; split <;> rfl
@[simp] theorem memWrite_flagZ (adr : Addr) (v : Byte) (s : State) : (memWrite adr v s).flagZ = s.flagZ := by
  unfold memWrite; split <;> rfl
@[simp] theorem memWrite_flagV (adr : Addr) (v : Byte) (s : State) : (memWrite adr v s).flagV = s.flagV := by
  unfold memWrite; split <;> rfl
@[simp] theorem memWrite_flagC (adr : Addr) (v : Byte) (s : State) : (memWrite adr v s).flagC = s.flagC := by
  unfold memWrite; split <;> rfl
@[simp] theorem memWrite_boundary (adr : Addr) (v : Byte) (s : State) : (memWrite adr v s).boundary = s.boundary := by
  unfold memWrite; split <;> rfl
@[simp] theorem memWrite_inFB (adr : Addr) (v : Byte) (s : State) : (memWrite adr v s).inFB = s.inFB := by
  unfold memWrite; split <;> rfl
@[simp] theorem memWrite_inFC (adr : Addr) (v : Byte) (s : State) : (memWrite adr v s).inFC = s.inFC := by
  unfold memWrite; split <;> rfl
@[simp] theorem memWrite_draws (adr : Addr) (v : Byte) (s : State) : (memWrite adr v s).draws = s.draws := by
  unfold memWrite; split <;> rfl

/-- The events after a write: one output event if the address is a port. -/
theorem events_memWrite (adr : Addr) (v : Byte) (s : State) :
    (memWrite adr v s).events = s.events ++ ((portOf adr).map (PortEvent.output · v)).toList := by
  cases h : portOf adr <;> simp [memWrite, h]

/-- The events after a read: one input event if the address is a port. -/
theorem events_afterRead (adr : Addr) (s : State) :
    (afterRead adr s).events = s.events ++ ((portOf adr).map (PortEvent.input · (readValue adr s))).toList := by
  cases h : portOf adr with
  | none => simp [afterRead, h]
  | some p => simp [afterRead, readValue, h, State.takeInput, State.portInput, State.scheduled]

/-- A write keeps the canonical form of the memory. -/
theorem wf_memWrite (adr : Addr) (v : Byte) (s : State) (h : s.mem.wf = true) : (memWrite adr v s).mem.wf = true := by
  cases hp : portOf adr with
  | none =>
    rw [memWrite_of_cell hp]
    exact Memory.wf_write v h adr.isLt (by simp [isPortNumber_toNat, hp])
  | some p => simpa [memWrite_of_port hp] using h

/-! ### The stack -/

@[simp] theorem push_a (v : Byte) (s : State) : (push v s).a = s.a := by simp [push]
@[simp] theorem push_x (v : Byte) (s : State) : (push v s).x = s.x := by simp [push]
@[simp] theorem push_y (v : Byte) (s : State) : (push v s).y = s.y := by simp [push]
@[simp] theorem push_pc (v : Byte) (s : State) : (push v s).pc = s.pc := by simp [push]
@[simp] theorem push_flagI (v : Byte) (s : State) : (push v s).flagI = s.flagI := by simp [push]
@[simp] theorem push_flagN (v : Byte) (s : State) : (push v s).flagN = s.flagN := by simp [push]
@[simp] theorem push_flagZ (v : Byte) (s : State) : (push v s).flagZ = s.flagZ := by simp [push]
@[simp] theorem push_flagV (v : Byte) (s : State) : (push v s).flagV = s.flagV := by simp [push]
@[simp] theorem push_flagC (v : Byte) (s : State) : (push v s).flagC = s.flagC := by simp [push]
@[simp] theorem push_boundary (v : Byte) (s : State) : (push v s).boundary = s.boundary := by simp [push]
@[simp] theorem push_inFB (v : Byte) (s : State) : (push v s).inFB = s.inFB := by simp [push]
@[simp] theorem push_inFC (v : Byte) (s : State) : (push v s).inFC = s.inFC := by simp [push]
@[simp] theorem push_draws (v : Byte) (s : State) : (push v s).draws = s.draws := by simp [push]
@[simp] theorem push_sp (v : Byte) (s : State) : (push v s).sp = s.sp - 1 := by simp [push]

theorem peek_push (v : Byte) (b : Addr) (s : State) :
    (push v s).peek b = if b = s.sp - 1 ∧ portOf (s.sp - 1) = none then v else s.peek b := by
  rw [push, peek_memWrite]; rfl

theorem wf_push (v : Byte) (s : State) (h : s.mem.wf = true) : (push v s).mem.wf = true :=
  wf_memWrite _ _ _ (by simpa using h)

@[simp] theorem pull_fst (s : State) : (pull s).1 = readValue s.sp s := rfl
@[simp] theorem pull_snd (s : State) : (pull s).2 = (afterRead s.sp s).setSP (s.sp + 1) := rfl

/-! ### CC as a byte -/

/-- CC as a byte has I in bit 4 and N, Z, V, C in bits 3 to 0, whatever bits 7..5 are (10_state.md R15). -/
theorem ccByte_bits (s : State) (h : BitVec 3) :
    (s.ccByte h).getLsbD 4 = s.flagI ∧ (s.ccByte h).getLsbD 3 = s.flagN ∧ (s.ccByte h).getLsbD 2 = s.flagZ ∧
      (s.ccByte h).getLsbD 1 = s.flagV ∧ (s.ccByte h).getLsbD 0 = s.flagC := by
  unfold State.ccByte
  generalize s.flagI = i, s.flagN = n, s.flagZ = z, s.flagV = v, s.flagC = c
  revert h
  cases i <;> cases n <;> cases z <;> cases v <;> cases c <;> decide

@[simp] theorem readCC_fst (s : State) : (readCC s).1 = s.ccByte (Config.ccHighBits s.draws) := rfl
@[simp] theorem readCC_snd (s : State) : (readCC s).2 = s.countDraw := rfl

@[simp] theorem writeCC_a (v : Byte) (s : State) : (writeCC v s).a = s.a := rfl
@[simp] theorem writeCC_x (v : Byte) (s : State) : (writeCC v s).x = s.x := rfl
@[simp] theorem writeCC_y (v : Byte) (s : State) : (writeCC v s).y = s.y := rfl
@[simp] theorem writeCC_sp (v : Byte) (s : State) : (writeCC v s).sp = s.sp := rfl
@[simp] theorem writeCC_pc (v : Byte) (s : State) : (writeCC v s).pc = s.pc := rfl
@[simp] theorem writeCC_mem (v : Byte) (s : State) : (writeCC v s).mem = s.mem := rfl
@[simp] theorem writeCC_boundary (v : Byte) (s : State) : (writeCC v s).boundary = s.boundary := rfl
@[simp] theorem writeCC_inFB (v : Byte) (s : State) : (writeCC v s).inFB = s.inFB := rfl
@[simp] theorem writeCC_inFC (v : Byte) (s : State) : (writeCC v s).inFC = s.inFC := rfl
@[simp] theorem writeCC_events (v : Byte) (s : State) : (writeCC v s).events = s.events := rfl
@[simp] theorem writeCC_draws (v : Byte) (s : State) : (writeCC v s).draws = s.draws := rfl
@[simp] theorem writeCC_flagI (v : Byte) (s : State) : (writeCC v s).flagI = v.getLsbD 4 := rfl
@[simp] theorem writeCC_flagN (v : Byte) (s : State) : (writeCC v s).flagN = v.getLsbD 3 := rfl
@[simp] theorem writeCC_flagZ (v : Byte) (s : State) : (writeCC v s).flagZ = v.getLsbD 2 := rfl
@[simp] theorem writeCC_flagV (v : Byte) (s : State) : (writeCC v s).flagV = v.getLsbD 1 := rfl
@[simp] theorem writeCC_flagC (v : Byte) (s : State) : (writeCC v s).flagC = v.getLsbD 0 := rfl

/-! ### The exception entry -/

/-- The entry of an exception, field by field but for the memory (R255). -/
theorem enterException_regs (e : Event) (ret : Byte) (s : State) :
    (enterException e ret s).a = s.a ∧ (enterException e ret s).x = s.x ∧ (enterException e ret s).y = s.y ∧
      (enterException e ret s).sp = s.sp - 5 ∧ (enterException e ret s).flagI = (s.flagI || entrySetsI e) ∧
      (enterException e ret s).flagN = s.flagN ∧ (enterException e ret s).flagZ = s.flagZ ∧
      (enterException e ret s).flagV = s.flagV ∧ (enterException e ret s).flagC = s.flagC := by
  simp only [enterException, jumpThroughVector, pushFrame]
  refine ⟨by simp, by simp, by simp, ?_, by simp, by simp, by simp, by simp, by simp⟩
  simp only [State.setPC_sp, afterRead_sp, State.setI_sp, push_sp, readCC_snd, State.countDraw_sp]
  bv_omega

/-- The entry of Trap or IRQ as one state: the five pushes with CC as it was, I set if the event sets it, and PC the
content of the vector cell after the pushes (R255, R258, R259). -/
theorem enterException_eq {e : Event} (he : e ≠ .reset) (ret : Byte) (s : State) :
    enterException e ret s = ((pushFrame ret (readCC s).1 (readCC s).2).setI (s.flagI || entrySetsI e)).setPC
      ((pushFrame ret (readCC s).1 (readCC s).2).peek (vectorOf e)) := by
  have hp : portOf (vectorOf e) = none := by
    cases e
    · exact absurd rfl he
    · decide
    · decide
  have hi : (pushFrame ret (readCC s).1 (readCC s).2).flagI = s.flagI := by simp [pushFrame]
  unfold enterException jumpThroughVector
  generalize pushFrame ret _ _ = u at *
  simp only [afterRead_of_cell hp, readValue_of_cell hp, hi]
  rfl

/-- The entry keeps the canonical form of the memory. -/
theorem wf_enterException (e : Event) (ret : Byte) (s : State) (h : s.mem.wf = true) :
    (enterException e ret s).mem.wf = true := by
  simp only [enterException, jumpThroughVector, pushFrame, State.setPC_mem, afterRead_mem, State.setI_mem]
  exact wf_push _ _ (wf_push _ _ (wf_push _ _ (wf_push _ _ (wf_push _ _ (by simpa using h)))))

/-- RTI changes no cell. -/
theorem returnFromException_mem (s : State) : (returnFromException s).mem = s.mem := by
  simp [returnFromException]

/-- A Reset changes no cell. -/
theorem resetSequence_mem (s : State) : (resetSequence s).mem = s.mem := by
  simp [resetSequence, jumpThroughVector]

end Sys2Proof.Machine
end

