-- ==== Sys2Proof/Laws/Operands.lean ====
section
/-!
SUPPORT. What the addressing modes and the shared shapes of Flags.lean can do, field by field: automatic updates, source
operands, "operand into A", "operand tested", "A rewritten", "memory byte rewritten".
-/

namespace Sys2Proof.Machine

variable (s : State)

/-! ### Reading does not depend on the registers -/

/-- The byte a read gives depends on the cells, the scheduled port bytes and the count of free values alone. -/
theorem readValue_congr {s t : State} (adr : Addr) (hm : t.mem = s.mem) (hb : t.inFB = s.inFB) (hc : t.inFC = s.inFC)
    (hd : t.draws = s.draws) : readValue adr t = readValue adr s := by
  unfold readValue
  cases portOf adr with
  | none => simp [State.peek, hm]
  | some p => cases p <;> simp [State.portInput, State.scheduled, hb, hc, hd]

/-! ### Automatic updates (30_encoding.md R59) -/

theorem afterUpdate_x (l : Loc) : (afterUpdate l s).x = match l with
    | .auto .x k => Auto.updated k s.x
    | _ => s.x := by
  rcases l with m | ⟨_ | _, k⟩ <;> rfl

theorem afterUpdate_y (l : Loc) : (afterUpdate l s).y = match l with
    | .auto .y k => Auto.updated k s.y
    | _ => s.y := by
  rcases l with m | ⟨_ | _, k⟩ <;> rfl

@[simp] theorem afterUpdate_a (l : Loc) : (afterUpdate l s).a = s.a := by
  cases l <;> simp [afterUpdate]
@[simp] theorem afterUpdate_sp (l : Loc) : (afterUpdate l s).sp = s.sp := by
  cases l <;> simp [afterUpdate]
@[simp] theorem afterUpdate_pc (l : Loc) : (afterUpdate l s).pc = s.pc := by
  cases l <;> simp [afterUpdate]
@[simp] theorem afterUpdate_flagI (l : Loc) : (afterUpdate l s).flagI = s.flagI := by
  cases l <;> simp [afterUpdate]
@[simp] theorem afterUpdate_flagN (l : Loc) : (afterUpdate l s).flagN = s.flagN := by
  cases l <;> simp [afterUpdate]
@[simp] theorem afterUpdate_flagZ (l : Loc) : (afterUpdate l s).flagZ = s.flagZ := by
  cases l <;> simp [afterUpdate]
@[simp] theorem afterUpdate_flagV (l : Loc) : (afterUpdate l s).flagV = s.flagV := by
  cases l <;> simp [afterUpdate]
@[simp] theorem afterUpdate_flagC (l : Loc) : (afterUpdate l s).flagC = s.flagC := by
  cases l <;> simp [afterUpdate]
@[simp] theorem afterUpdate_mem (l : Loc) : (afterUpdate l s).mem = s.mem := by
  cases l <;> simp [afterUpdate]
@[simp] theorem afterUpdate_boundary (l : Loc) : (afterUpdate l s).boundary = s.boundary := by
  cases l <;> simp [afterUpdate]
@[simp] theorem afterUpdate_inFB (l : Loc) : (afterUpdate l s).inFB = s.inFB := by
  cases l <;> simp [afterUpdate]
@[simp] theorem afterUpdate_inFC (l : Loc) : (afterUpdate l s).inFC = s.inFC := by
  cases l <;> simp [afterUpdate]
@[simp] theorem afterUpdate_events (l : Loc) : (afterUpdate l s).events = s.events := by
  cases l <;> simp [afterUpdate]
@[simp] theorem afterUpdate_draws (l : Loc) : (afterUpdate l s).draws = s.draws := by
  cases l <;> simp [afterUpdate]

@[simp] theorem readValue_afterUpdate (l : Loc) (adr : Addr) : readValue adr (afterUpdate l s) = readValue adr s :=
  readValue_congr adr (by simp) (by simp) (by simp) (by simp)

/-! ### Source operands -/

@[simp] theorem afterSrc_a (o : Src) : (afterSrc o s).a = s.a := by
  cases o <;> simp [afterSrc]
@[simp] theorem afterSrc_sp (o : Src) : (afterSrc o s).sp = s.sp := by
  cases o <;> simp [afterSrc]
@[simp] theorem afterSrc_pc (o : Src) : (afterSrc o s).pc = s.pc := by
  cases o <;> simp [afterSrc]
@[simp] theorem afterSrc_flagI (o : Src) : (afterSrc o s).flagI = s.flagI := by
  cases o <;> simp [afterSrc]
@[simp] theorem afterSrc_flagN (o : Src) : (afterSrc o s).flagN = s.flagN := by
  cases o <;> simp [afterSrc]
@[simp] theorem afterSrc_flagZ (o : Src) : (afterSrc o s).flagZ = s.flagZ := by
  cases o <;> simp [afterSrc]
@[simp] theorem afterSrc_flagV (o : Src) : (afterSrc o s).flagV = s.flagV := by
  cases o <;> simp [afterSrc]
@[simp] theorem afterSrc_flagC (o : Src) : (afterSrc o s).flagC = s.flagC := by
  cases o <;> simp [afterSrc]
@[simp] theorem afterSrc_mem (o : Src) : (afterSrc o s).mem = s.mem := by
  cases o <;> simp [afterSrc]
@[simp] theorem afterSrc_boundary (o : Src) : (afterSrc o s).boundary = s.boundary := by
  cases o <;> simp [afterSrc]

@[simp] theorem afterSrc_x_ea (m : Ea) : (afterSrc (.loc (.ea m)) s).x = s.x := by simp [afterSrc, afterUpdate]
@[simp] theorem afterSrc_y_ea (m : Ea) : (afterSrc (.loc (.ea m)) s).y = s.y := by simp [afterSrc, afterUpdate]

/-- An operand that is immediate or has no automatic update changes neither X nor Y. -/
theorem afterSrc_xy {p : Ea → Bool} {o : Src} (h : o.isImOr p = true) : (afterSrc o s).x = s.x ∧ (afterSrc o s).y = s.y := by
  rcases o with d | m | ⟨r, k⟩
  · exact ⟨rfl, rfl⟩
  · simp
  · cases h

/-! ### The shared shapes, field by field -/

/-- "Operand into A": A and the flags take the result; SP, PC, I and the cells stay. -/
theorem operateA_spec (op : Byte → Byte → Bool → Result) (o : Src) :
    let f := op s.a (srcValue o s) s.flagC
    let t := operateA op o s
    t.a = f.r ∧ t.flagN = f.n ∧ t.flagZ = f.z ∧ t.flagV = f.v ∧ t.flagC = f.c ∧ t.x = (afterSrc o s).x ∧
      t.y = (afterSrc o s).y ∧ t.sp = s.sp ∧ t.pc = s.pc ∧ t.flagI = s.flagI ∧ t.mem = s.mem := by
  simp [operateA]

/-- "Operand tested": the flags take the result; A, SP, PC, I and the cells stay. -/
theorem testAgainst_spec (op : Byte → Byte → Bool → Result) (reg : Byte) (o : Src) :
    let f := op reg (srcValue o s) s.flagC
    let t := testAgainst op reg o s
    t.flagN = f.n ∧ t.flagZ = f.z ∧ t.flagV = f.v ∧ t.flagC = f.c ∧ t.a = s.a ∧ t.x = (afterSrc o s).x ∧
      t.y = (afterSrc o s).y ∧ t.sp = s.sp ∧ t.pc = s.pc ∧ t.flagI = s.flagI ∧ t.mem = s.mem := by
  simp [testAgainst]

/-- "A rewritten": A and the four result flags take the result; nothing else changes. -/
theorem rewriteA_eq (op : Byte → Bool → Result) :
    rewriteA op s = { s with
      a := (op s.a s.flagC).r, flagN := (op s.a s.flagC).n, flagZ := (op s.a s.flagC).z,
      flagV := (op s.a s.flagC).v, flagC := (op s.a s.flagC).c } := rfl

/-- "Memory byte rewritten": the flags take the result, the cell at EA the result byte; no register changes. -/
theorem rewriteMemory_spec (op : Byte → Bool → Result) (m : Ea) :
    let f := op (readValue (eaOf m s) s) s.flagC
    let t := rewriteMemory op m s
    t.flagN = f.n ∧ t.flagZ = f.z ∧ t.flagV = f.v ∧ t.flagC = f.c ∧ t.a = s.a ∧ t.x = s.x ∧ t.y = s.y ∧ t.sp = s.sp ∧
      t.pc = s.pc ∧ t.flagI = s.flagI ∧
      ∀ b, t.peek b = if b = eaOf m s ∧ portOf (eaOf m s) = none then f.r else s.peek b := by
  refine ⟨rfl, rfl, rfl, rfl, ?_, ?_, ?_, ?_, ?_, ?_, fun b => ?_⟩ <;> simp only [rewriteMemory]
  · simp
  · simp
  · simp
  · simp
  · simp
  · simp
  · have h := peek_memWrite (eaOf m s) b (op (readValue (eaOf m s) s) s.flagC).r (afterRead (eaOf m s) s)
    rw [peek_afterRead] at h
    exact h

/-- N of a result is its bit 7. -/
theorem negative_eq (r : Byte) : negative r = r.getLsbD 7 := rfl

/-- Z of a result says that its value is 0. -/
theorem isZero_eq (r : Byte) : isZero r = decide (r.toNat = 0) := by
  revert r; decide

end Sys2Proof.Machine
end

