-- ==== Sys2Proof/Laws/PerInstr.lean ====
section
/-!
SUPPORT. A fact about every instruction as syntax, one lemma per constructor: the encoding of a well-formed instruction is
one or two bytes long (30_encoding.md R50), and the length its operation code gives (R63).
-/

namespace Sys2Proof.Laws.ShortEncoding

/-- A well-formed instruction has an operation code, and as many bytes as that code says, one or two. -/
def Statement (i : Instr) : Prop :=
  i.wf = true → ∃ op rest, encode i = op :: rest ∧ (encode i).length = lengthOf op ∧ rest.length ≤ 1

theorem nop : Statement .nop :=
  fun _ => ⟨_, _, rfl, rfl, by decide⟩

theorem andcc (data : Byte) : Statement (.andcc data) :=
  fun _ => ⟨_, _, rfl, rfl, Nat.le_refl _⟩

theorem orcc (data : Byte) : Statement (.orcc data) :=
  fun _ => ⟨_, _, rfl, rfl, Nat.le_refl _⟩

theorem undefined (code : Byte) : Statement (.undefined code) := by
  intro h
  have hc : code = 3 ∨ code = 4 ∨ code = 0xDF ∨ code = 0xE0 ∨ code = 0xEF ∨ code = 0xFF := by
    simpa [Instr.wf, undefinedCodes] using h
  rcases hc with h | h | h | h | h | h <;> rw [h] <;> exact ⟨_, _, rfl, rfl, by decide⟩

theorem clra : Statement .clra :=
  fun _ => ⟨_, _, rfl, rfl, by decide⟩

theorem nega : Statement .nega :=
  fun _ => ⟨_, _, rfl, rfl, by decide⟩

theorem inca : Statement .inca :=
  fun _ => ⟨_, _, rfl, rfl, by decide⟩

theorem deca : Statement .deca :=
  fun _ => ⟨_, _, rfl, rfl, by decide⟩

theorem tsta : Statement .tsta :=
  fun _ => ⟨_, _, rfl, rfl, by decide⟩

theorem coma : Statement .coma :=
  fun _ => ⟨_, _, rfl, rfl, by decide⟩

theorem lsla : Statement .lsla :=
  fun _ => ⟨_, _, rfl, rfl, by decide⟩

theorem lsra : Statement .lsra :=
  fun _ => ⟨_, _, rfl, rfl, by decide⟩

theorem rola : Statement .rola :=
  fun _ => ⟨_, _, rfl, rfl, by decide⟩

theorem rora : Statement .rora :=
  fun _ => ⟨_, _, rfl, rfl, by decide⟩

theorem asra : Statement .asra :=
  fun _ => ⟨_, _, rfl, rfl, by decide⟩

theorem psha : Statement .psha :=
  fun _ => ⟨_, _, rfl, rfl, by decide⟩

theorem pshx : Statement .pshx :=
  fun _ => ⟨_, _, rfl, rfl, by decide⟩

theorem pshy : Statement .pshy :=
  fun _ => ⟨_, _, rfl, rfl, by decide⟩

theorem pshcc : Statement .pshcc :=
  fun _ => ⟨_, _, rfl, rfl, by decide⟩

theorem pula : Statement .pula :=
  fun _ => ⟨_, _, rfl, rfl, by decide⟩

theorem pulx : Statement .pulx :=
  fun _ => ⟨_, _, rfl, rfl, by decide⟩

theorem puly : Statement .puly :=
  fun _ => ⟨_, _, rfl, rfl, by decide⟩

theorem pulcc : Statement .pulcc :=
  fun _ => ⟨_, _, rfl, rfl, by decide⟩

theorem tfrAToCC : Statement .tfrAToCC :=
  fun _ => ⟨_, _, rfl, rfl, by decide⟩

theorem tfrCCToA : Statement .tfrCCToA :=
  fun _ => ⟨_, _, rfl, rfl, by decide⟩

theorem tfrXToY : Statement .tfrXToY :=
  fun _ => ⟨_, _, rfl, rfl, by decide⟩

theorem tfrYToX : Statement .tfrYToX :=
  fun _ => ⟨_, _, rfl, rfl, by decide⟩

theorem tfrXToSP : Statement .tfrXToSP :=
  fun _ => ⟨_, _, rfl, rfl, by decide⟩

theorem tfrSPToX : Statement .tfrSPToX :=
  fun _ => ⟨_, _, rfl, rfl, by decide⟩

theorem tfrYToSP : Statement .tfrYToSP :=
  fun _ => ⟨_, _, rfl, rfl, by decide⟩

theorem tfrSPToY : Statement .tfrSPToY :=
  fun _ => ⟨_, _, rfl, rfl, by decide⟩

theorem bsr (offset : Byte) : Statement (.bsr offset) :=
  fun _ => ⟨_, _, rfl, rfl, Nat.le_refl _⟩

theorem bra (offset : Byte) : Statement (.bra offset) :=
  fun _ => ⟨_, _, rfl, rfl, Nat.le_refl _⟩

theorem bmi (offset : Byte) : Statement (.bmi offset) :=
  fun _ => ⟨_, _, rfl, rfl, Nat.le_refl _⟩

theorem bpl (offset : Byte) : Statement (.bpl offset) :=
  fun _ => ⟨_, _, rfl, rfl, Nat.le_refl _⟩

theorem beq (offset : Byte) : Statement (.beq offset) :=
  fun _ => ⟨_, _, rfl, rfl, Nat.le_refl _⟩

theorem bne (offset : Byte) : Statement (.bne offset) :=
  fun _ => ⟨_, _, rfl, rfl, Nat.le_refl _⟩

theorem bvs (offset : Byte) : Statement (.bvs offset) :=
  fun _ => ⟨_, _, rfl, rfl, Nat.le_refl _⟩

theorem bvc (offset : Byte) : Statement (.bvc offset) :=
  fun _ => ⟨_, _, rfl, rfl, Nat.le_refl _⟩

theorem bcs (offset : Byte) : Statement (.bcs offset) :=
  fun _ => ⟨_, _, rfl, rfl, Nat.le_refl _⟩

theorem bcc (offset : Byte) : Statement (.bcc offset) :=
  fun _ => ⟨_, _, rfl, rfl, Nat.le_refl _⟩

theorem bhi (offset : Byte) : Statement (.bhi offset) :=
  fun _ => ⟨_, _, rfl, rfl, Nat.le_refl _⟩

theorem bls (offset : Byte) : Statement (.bls offset) :=
  fun _ => ⟨_, _, rfl, rfl, Nat.le_refl _⟩

theorem bgt (offset : Byte) : Statement (.bgt offset) :=
  fun _ => ⟨_, _, rfl, rfl, Nat.le_refl _⟩

theorem bge (offset : Byte) : Statement (.bge offset) :=
  fun _ => ⟨_, _, rfl, rfl, Nat.le_refl _⟩

theorem ble (offset : Byte) : Statement (.ble offset) :=
  fun _ => ⟨_, _, rfl, rfl, Nat.le_refl _⟩

theorem blt (offset : Byte) : Statement (.blt offset) :=
  fun _ => ⟨_, _, rfl, rfl, Nat.le_refl _⟩

theorem stx (m : Ea) : Statement (.stx m) := by
  intro _
  cases m <;> first | exact ⟨_, _, rfl, rfl, Nat.le_refl _⟩ | exact ⟨_, _, rfl, rfl, Nat.zero_le _⟩

theorem sty (m : Ea) : Statement (.sty m) := by
  intro _
  cases m <;> first | exact ⟨_, _, rfl, rfl, Nat.le_refl _⟩ | exact ⟨_, _, rfl, rfl, Nat.zero_le _⟩

theorem stsp (m : Ea) : Statement (.stsp m) := by
  intro _
  cases m <;> first | exact ⟨_, _, rfl, rfl, Nat.le_refl _⟩ | exact ⟨_, _, rfl, rfl, Nat.zero_le _⟩

theorem jmp (m : Ea) : Statement (.jmp m) := by
  intro h
  cases m <;> first | exact ⟨_, _, rfl, rfl, Nat.le_refl _⟩ | exact ⟨_, _, rfl, rfl, Nat.zero_le _⟩ | exact absurd h Bool.false_ne_true

theorem jsr (m : Ea) : Statement (.jsr m) := by
  intro h
  cases m <;> first | exact ⟨_, _, rfl, rfl, Nat.le_refl _⟩ | exact ⟨_, _, rfl, rfl, Nat.zero_le _⟩ | exact absurd h Bool.false_ne_true

theorem clr (m : Ea) : Statement (.clr m) := by
  intro _
  cases m <;> first | exact ⟨_, _, rfl, rfl, Nat.le_refl _⟩ | exact ⟨_, _, rfl, rfl, Nat.zero_le _⟩

theorem neg (m : Ea) : Statement (.neg m) := by
  intro _
  cases m <;> first | exact ⟨_, _, rfl, rfl, Nat.le_refl _⟩ | exact ⟨_, _, rfl, rfl, Nat.zero_le _⟩

theorem inc (m : Ea) : Statement (.inc m) := by
  intro _
  cases m <;> first | exact ⟨_, _, rfl, rfl, Nat.le_refl _⟩ | exact ⟨_, _, rfl, rfl, Nat.zero_le _⟩

theorem dec (m : Ea) : Statement (.dec m) := by
  intro _
  cases m <;> first | exact ⟨_, _, rfl, rfl, Nat.le_refl _⟩ | exact ⟨_, _, rfl, rfl, Nat.zero_le _⟩

theorem tst (m : Ea) : Statement (.tst m) := by
  intro _
  cases m <;> first | exact ⟨_, _, rfl, rfl, Nat.le_refl _⟩ | exact ⟨_, _, rfl, rfl, Nat.zero_le _⟩

theorem com (m : Ea) : Statement (.com m) := by
  intro _
  cases m <;> first | exact ⟨_, _, rfl, rfl, Nat.le_refl _⟩ | exact ⟨_, _, rfl, rfl, Nat.zero_le _⟩

theorem lsl (m : Ea) : Statement (.lsl m) := by
  intro _
  cases m <;> first | exact ⟨_, _, rfl, rfl, Nat.le_refl _⟩ | exact ⟨_, _, rfl, rfl, Nat.zero_le _⟩

theorem lsr (m : Ea) : Statement (.lsr m) := by
  intro _
  cases m <;> first | exact ⟨_, _, rfl, rfl, Nat.le_refl _⟩ | exact ⟨_, _, rfl, rfl, Nat.zero_le _⟩

theorem rol (m : Ea) : Statement (.rol m) := by
  intro _
  cases m <;> first | exact ⟨_, _, rfl, rfl, Nat.le_refl _⟩ | exact ⟨_, _, rfl, rfl, Nat.zero_le _⟩

theorem ror (m : Ea) : Statement (.ror m) := by
  intro _
  cases m <;> first | exact ⟨_, _, rfl, rfl, Nat.le_refl _⟩ | exact ⟨_, _, rfl, rfl, Nat.zero_le _⟩

theorem asr (m : Ea) : Statement (.asr m) := by
  intro _
  cases m <;> first | exact ⟨_, _, rfl, rfl, Nat.le_refl _⟩ | exact ⟨_, _, rfl, rfl, Nat.zero_le _⟩

theorem rts : Statement .rts :=
  fun _ => ⟨_, _, rfl, rfl, by decide⟩

theorem rti : Statement .rti :=
  fun _ => ⟨_, _, rfl, rfl, by decide⟩

theorem ldx (o : Src) : Statement (.ldx o) := by
  intro h
  rcases o with d | m | ⟨r, k⟩
  · exact ⟨_, _, rfl, rfl, Nat.le_refl _⟩
  · cases m <;> first | exact ⟨_, _, rfl, rfl, Nat.le_refl _⟩ | exact absurd h Bool.false_ne_true
  · exact absurd h Bool.false_ne_true

theorem ldy (o : Src) : Statement (.ldy o) := by
  intro h
  rcases o with d | m | ⟨r, k⟩
  · exact ⟨_, _, rfl, rfl, Nat.le_refl _⟩
  · cases m <;> first | exact ⟨_, _, rfl, rfl, Nat.le_refl _⟩ | exact absurd h Bool.false_ne_true
  · exact absurd h Bool.false_ne_true

theorem ldsp (o : Src) : Statement (.ldsp o) := by
  intro h
  rcases o with d | m | ⟨r, k⟩
  · exact ⟨_, _, rfl, rfl, Nat.le_refl _⟩
  · cases m <;> first | exact ⟨_, _, rfl, rfl, Nat.le_refl _⟩ | exact absurd h Bool.false_ne_true
  · exact absurd h Bool.false_ne_true

theorem sbca (o : Src) : Statement (.sbca o) := by
  intro h
  rcases o with d | m | ⟨r, k⟩
  · exact ⟨_, _, rfl, rfl, Nat.le_refl _⟩
  · cases m <;> first | exact ⟨_, _, rfl, rfl, Nat.le_refl _⟩ | exact absurd h Bool.false_ne_true
  · exact absurd h Bool.false_ne_true

theorem suba (o : Src) : Statement (.suba o) := by
  intro h
  rcases o with d | m | ⟨r, k⟩
  · exact ⟨_, _, rfl, rfl, Nat.le_refl _⟩
  · cases m <;> first | exact ⟨_, _, rfl, rfl, Nat.le_refl _⟩ | exact absurd h Bool.false_ne_true
  · exact absurd h Bool.false_ne_true

theorem adca (o : Src) : Statement (.adca o) := by
  intro h
  rcases o with d | m | ⟨r, k⟩
  · exact ⟨_, _, rfl, rfl, Nat.le_refl _⟩
  · cases m <;> first | exact ⟨_, _, rfl, rfl, Nat.le_refl _⟩ | exact absurd h Bool.false_ne_true
  · exact absurd h Bool.false_ne_true

theorem adda (o : Src) : Statement (.adda o) := by
  intro h
  rcases o with d | m | ⟨r, k⟩
  · exact ⟨_, _, rfl, rfl, Nat.le_refl _⟩
  · cases m <;> first | exact ⟨_, _, rfl, rfl, Nat.le_refl _⟩ | exact absurd h Bool.false_ne_true
  · exact absurd h Bool.false_ne_true

theorem cmpa (o : Src) : Statement (.cmpa o) := by
  intro h
  rcases o with d | m | ⟨r, k⟩
  · exact ⟨_, _, rfl, rfl, Nat.le_refl _⟩
  · cases m <;> first | exact ⟨_, _, rfl, rfl, Nat.le_refl _⟩ | exact absurd h Bool.false_ne_true
  · exact absurd h Bool.false_ne_true

theorem bita (o : Src) : Statement (.bita o) := by
  intro h
  rcases o with d | m | ⟨r, k⟩
  · exact ⟨_, _, rfl, rfl, Nat.le_refl _⟩
  · cases m <;> first | exact ⟨_, _, rfl, rfl, Nat.le_refl _⟩ | exact absurd h Bool.false_ne_true
  · exact absurd h Bool.false_ne_true

theorem anda (o : Src) : Statement (.anda o) := by
  intro h
  rcases o with d | m | ⟨r, k⟩
  · exact ⟨_, _, rfl, rfl, Nat.le_refl _⟩
  · cases m <;> first | exact ⟨_, _, rfl, rfl, Nat.le_refl _⟩ | exact absurd h Bool.false_ne_true
  · exact absurd h Bool.false_ne_true

theorem ora (o : Src) : Statement (.ora o) := by
  intro h
  rcases o with d | m | ⟨r, k⟩
  · exact ⟨_, _, rfl, rfl, Nat.le_refl _⟩
  · cases m <;> first | exact ⟨_, _, rfl, rfl, Nat.le_refl _⟩ | exact absurd h Bool.false_ne_true
  · exact absurd h Bool.false_ne_true

theorem eora (o : Src) : Statement (.eora o) := by
  intro h
  rcases o with d | m | ⟨r, k⟩
  · exact ⟨_, _, rfl, rfl, Nat.le_refl _⟩
  · cases m <;> first | exact ⟨_, _, rfl, rfl, Nat.le_refl _⟩ | exact absurd h Bool.false_ne_true
  · exact absurd h Bool.false_ne_true

theorem cmpx (o : Src) : Statement (.cmpx o) := by
  intro h
  rcases o with d | m | ⟨r, k⟩
  · exact ⟨_, _, rfl, rfl, Nat.le_refl _⟩
  · cases m <;> first | exact ⟨_, _, rfl, rfl, Nat.le_refl _⟩ | exact absurd h Bool.false_ne_true
  · exact absurd h Bool.false_ne_true

theorem cmpy (o : Src) : Statement (.cmpy o) := by
  intro h
  rcases o with d | m | ⟨r, k⟩
  · exact ⟨_, _, rfl, rfl, Nat.le_refl _⟩
  · cases m <;> first | exact ⟨_, _, rfl, rfl, Nat.le_refl _⟩ | exact absurd h Bool.false_ne_true
  · exact absurd h Bool.false_ne_true

theorem cmpsp (o : Src) : Statement (.cmpsp o) := by
  intro h
  rcases o with d | m | ⟨r, k⟩
  · exact ⟨_, _, rfl, rfl, Nat.le_refl _⟩
  · cases m <;> first | exact ⟨_, _, rfl, rfl, Nat.le_refl _⟩ | exact absurd h Bool.false_ne_true
  · exact absurd h Bool.false_ne_true

theorem exgACC : Statement .exgACC :=
  fun _ => ⟨_, _, rfl, rfl, by decide⟩

theorem exgXY : Statement .exgXY :=
  fun _ => ⟨_, _, rfl, rfl, by decide⟩

theorem leasp (m : Ea) : Statement (.leasp m) := by
  intro h
  cases m <;> first | exact ⟨_, _, rfl, rfl, Nat.le_refl _⟩ | exact ⟨_, _, rfl, rfl, Nat.zero_le _⟩ | exact absurd h Bool.false_ne_true

theorem exgXSP : Statement .exgXSP :=
  fun _ => ⟨_, _, rfl, rfl, by decide⟩

theorem leax (m : Ea) : Statement (.leax m) := by
  intro h
  cases m <;> first | exact ⟨_, _, rfl, rfl, Nat.le_refl _⟩ | exact ⟨_, _, rfl, rfl, Nat.zero_le _⟩ | exact absurd h Bool.false_ne_true

theorem leay (m : Ea) : Statement (.leay m) := by
  intro h
  cases m <;> first | exact ⟨_, _, rfl, rfl, Nat.le_refl _⟩ | exact ⟨_, _, rfl, rfl, Nat.zero_le _⟩ | exact absurd h Bool.false_ne_true

theorem exgYSP : Statement .exgYSP :=
  fun _ => ⟨_, _, rfl, rfl, by decide⟩

theorem sta (l : Loc) : Statement (.sta l) := by
  intro _
  rcases l with m | ⟨_ | _, _ | _⟩
  · cases m <;> first | exact ⟨_, _, rfl, rfl, Nat.le_refl _⟩ | exact ⟨_, _, rfl, rfl, Nat.zero_le _⟩
  all_goals exact ⟨_, _, rfl, rfl, Nat.zero_le _⟩

theorem lda (o : Src) : Statement (.lda o) := by
  intro _
  rcases o with d | m | ⟨_ | _, _ | _⟩
  · exact ⟨_, _, rfl, rfl, Nat.le_refl _⟩
  · cases m <;> first | exact ⟨_, _, rfl, rfl, Nat.le_refl _⟩ | exact ⟨_, _, rfl, rfl, Nat.zero_le _⟩
  all_goals exact ⟨_, _, rfl, rfl, Nat.zero_le _⟩

end Sys2Proof.Laws.ShortEncoding
end

