-- ==== Sys2Proof/Tests/Slice0.lean ====
section
/-!
SUPPORT. The model's own tests: what WellFormed refuses; words of the encoding tables of spec/ written out, for every
constructor; vectors of 95_test_vectors.md (the id V<file>.<n> is in the name, the expected values are the spec's); and for
every statement with hypotheses a state and operands that meet them.
-/

namespace Sys2Proof.Tests

open Sys2Proof.Machine Sys2Proof.Claims

/-! ### WellFormed refuses each ill-formed shape (30_encoding.md R60, R61) -/

theorem test_wf_jmp_ns : (Instr.jmp (.ns 0)).wf = false := by decide
theorem test_wf_jsr_ns : (Instr.jsr (.ns 0)).wf = false := by decide
theorem test_wf_ldx_ax : (Instr.ldx (.loc (.ea .ax))).wf = false := by decide
theorem test_wf_adda_ay : (Instr.adda (.loc (.ea .ay))).wf = false := by decide
theorem test_wf_suba_auto : (Instr.suba (.loc (.auto .x .postInc))).wf = false := by decide
theorem test_wf_cmpx_nx : (Instr.cmpx (.loc (.ea (.nx 1)))).wf = false := by decide
theorem test_wf_cmpy_ny : (Instr.cmpy (.loc (.ea (.ny 1)))).wf = false := by decide
theorem test_wf_cmpsp_ns : (Instr.cmpsp (.loc (.ea (.ns 1)))).wf = false := by decide
theorem test_wf_leax_ny : (Instr.leax (.ny 1)).wf = false := by decide
theorem test_wf_leay_nx : (Instr.leay (.nx 1)).wf = false := by decide
theorem test_wf_leasp_ab : (Instr.leasp (.ab 1)).wf = false := by decide
theorem test_wf_undefined_00 : (Instr.undefined 0x00).wf = false := by decide
/-- An ill-formed term has no bytes. -/
theorem test_ill_formed_has_no_bytes :
    [encode (.jmp (.ns 0)), encode (.cmpx (.loc (.ea (.nx 1)))), encode (.undefined 0x00)] = [[], [], []] := by decide

/-! ### Words of the encoding tables: bits of the table row, word, instruction; the operand byte is $8F -/

def wordsDecode (rows : List (Nat × Nat × Instr)) : Bool :=
  rows.all fun row => decodeTableWord row.1 row.2.1 == some row.2.2

theorem test_decode_load_store_1 : wordsDecode
    [(16, 0x8F30, .stx (.ab 0x8F)), (16, 0x8F40, .stx (.ns 0x8F)), (16, 0x8F50, .stx (.nx 0x8F)), (8, 0x60, .stx .ax),
     (16, 0x8F70, .stx (.ny 0x8F)), (8, 0x80, .stx .ay), (16, 0x8F71, .sty (.ny 0x8F)), (8, 0x82, .stsp .ay),
     (16, 0x8F90, .ldx (.im 0x8F)), (16, 0x8FA0, .ldx (.loc (.ea (.ab 0x8F)))),
     (16, 0x8FB0, .ldx (.loc (.ea (.ns 0x8F)))), (16, 0x8FC0, .ldx (.loc (.ea (.nx 0x8F)))),
     (16, 0x8FD0, .ldx (.loc (.ea (.ny 0x8F)))), (16, 0x8FB1, .ldy (.loc (.ea (.ns 0x8F)))),
     (16, 0x8FC2, .ldsp (.loc (.ea (.nx 0x8F)))), (16, 0x8FBE, .leasp (.ns 0x8F)), (16, 0x8FCE, .leasp (.nx 0x8F)),
     (16, 0x8FDE, .leasp (.ny 0x8F)), (16, 0x8FCC, .leax (.nx 0x8F)), (16, 0x8FDC, .leax (.ns 0x8F)),
     (16, 0x8FCD, .leay (.ny 0x8F)), (16, 0x8FDD, .leay (.ns 0x8F)), (16, 0x8FE1, .sta (.ea (.ab 0x8F))),
     (16, 0x8FE2, .sta (.ea (.ns 0x8F)))] = true := by decide

theorem test_decode_load_store_2 : wordsDecode
    [(16, 0x8FE3, .sta (.ea (.nx 0x8F))), (8, 0xE4, .sta (.ea .ax)), (8, 0xE5, .sta (.auto .x .postInc)),
     (8, 0xE6, .sta (.auto .x .postDec)), (8, 0xE7, .sta (.auto .x .preInc)), (8, 0xE8, .sta (.auto .x .preDec)),
     (16, 0x8FE9, .sta (.ea (.ny 0x8F))), (8, 0xEA, .sta (.ea .ay)), (8, 0xEB, .sta (.auto .y .postInc)),
     (8, 0xEC, .sta (.auto .y .postDec)), (8, 0xED, .sta (.auto .y .preInc)), (8, 0xEE, .sta (.auto .y .preDec)),
     (16, 0x8FF0, .lda (.im 0x8F)), (16, 0x8FF1, .lda (.loc (.ea (.ab 0x8F)))),
     (16, 0x8FF2, .lda (.loc (.ea (.ns 0x8F)))), (16, 0x8FF3, .lda (.loc (.ea (.nx 0x8F)))),
     (8, 0xF4, .lda (.loc (.ea .ax))), (8, 0xF5, .lda (.loc (.auto .x .postInc))),
     (8, 0xF6, .lda (.loc (.auto .x .postDec))), (8, 0xF7, .lda (.loc (.auto .x .preInc))),
     (8, 0xF8, .lda (.loc (.auto .x .preDec))), (16, 0x8FF9, .lda (.loc (.ea (.ny 0x8F)))),
     (8, 0xFA, .lda (.loc (.ea .ay))), (8, 0xFB, .lda (.loc (.auto .y .postInc)))] = true := by decide

theorem test_decode_load_store_3 : wordsDecode
    [(8, 0xFC, .lda (.loc (.auto .y .postDec))), (8, 0xFD, .lda (.loc (.auto .y .preInc))),
     (8, 0xFE, .lda (.loc (.auto .y .preDec)))] = true := by decide

theorem test_decode_data_movement : wordsDecode
    [(8, 0x18, .tfrAToCC), (8, 0x19, .tfrCCToA), (8, 0x1A, .tfrXToY), (8, 0x1B, .tfrYToX), (8, 0x1C, .tfrXToSP),
     (8, 0x1D, .tfrSPToX), (8, 0x1E, .tfrYToSP), (8, 0x1F, .tfrSPToY), (8, 0x9F, .exgACC), (8, 0xAF, .exgXY),
     (8, 0xBF, .exgXSP), (8, 0xCF, .exgYSP)] = true := by decide

theorem test_decode_flow_control : wordsDecode
    [(16, 0x8F20, .bsr 0x8F), (16, 0x8F21, .bra 0x8F), (16, 0x8F22, .bmi 0x8F), (16, 0x8F23, .bpl 0x8F),
     (16, 0x8F24, .beq 0x8F), (16, 0x8F25, .bne 0x8F), (16, 0x8F26, .bvs 0x8F), (16, 0x8F27, .bvc 0x8F),
     (16, 0x8F28, .bcs 0x8F), (16, 0x8F29, .bcc 0x8F), (16, 0x8F2A, .bhi 0x8F), (16, 0x8F2B, .bls 0x8F),
     (16, 0x8F2C, .bgt 0x8F), (16, 0x8F2D, .bge 0x8F), (16, 0x8F2E, .ble 0x8F), (16, 0x8F2F, .blt 0x8F),
     (16, 0x8F33, .jmp (.ab 0x8F)), (8, 0x63, .jmp .ax), (16, 0x8F74, .jsr (.ny 0x8F)), (8, 0x43, .rts),
     (8, 0x44, .rti)] = true := by decide

theorem test_decode_integer_arithmetic : wordsDecode
    [(8, 0x05, .clra), (8, 0x06, .nega), (8, 0x07, .inca), (8, 0x08, .deca), (16, 0x8F45, .clr (.ns 0x8F)),
     (16, 0x8F56, .neg (.nx 0x8F)), (8, 0x67, .inc .ax), (16, 0x8F78, .dec (.ny 0x8F)),
     (16, 0x8FD3, .sbca (.loc (.ea (.ny 0x8F)))), (16, 0x8F94, .suba (.im 0x8F)),
     (16, 0x8FA5, .adca (.loc (.ea (.ab 0x8F)))), (16, 0x8FB6, .adda (.loc (.ea (.ns 0x8F))))] = true := by decide

theorem test_decode_integer_test : wordsDecode
    [(8, 0x09, .tsta), (8, 0x89, .tst .ay), (16, 0x8FC7, .cmpa (.loc (.ea (.nx 0x8F)))),
     (16, 0x8FD8, .bita (.loc (.ea (.ny 0x8F)))), (16, 0x8F9C, .cmpx (.im 0x8F)),
     (16, 0x8FBC, .cmpx (.loc (.ea (.ns 0x8F)))), (16, 0x8FAD, .cmpy (.loc (.ea (.ab 0x8F)))),
     (16, 0x8F9E, .cmpsp (.im 0x8F))] = true := by decide

theorem test_decode_logical : wordsDecode
    [(16, 0x8F01, .andcc 0x8F), (16, 0x8F02, .orcc 0x8F), (8, 0x0A, .coma), (16, 0x8F3A, .com (.ab 0x8F)),
     (16, 0x8F99, .anda (.im 0x8F)), (16, 0x8FAA, .ora (.loc (.ea (.ab 0x8F)))),
     (16, 0x8FBB, .eora (.loc (.ea (.ns 0x8F))))] = true := by decide

theorem test_decode_shift_rotate : wordsDecode
    [(8, 0x0B, .lsla), (8, 0x0C, .lsra), (8, 0x0D, .rola), (8, 0x0E, .rora), (8, 0x0F, .asra),
     (16, 0x8F4B, .lsl (.ns 0x8F)), (16, 0x8F5C, .lsr (.nx 0x8F)), (8, 0x6D, .rol .ax), (16, 0x8F7E, .ror (.ny 0x8F)),
     (8, 0x8F, .asr .ay)] = true := by decide

theorem test_decode_stack : wordsDecode
    [(8, 0x10, .psha), (8, 0x11, .pshx), (8, 0x12, .pshy), (8, 0x13, .pshcc), (8, 0x14, .pula), (8, 0x15, .pulx),
     (8, 0x16, .puly), (8, 0x17, .pulcc)] = true := by decide

theorem test_decode_misc : wordsDecode
    [(8, 0x00, .nop)] = true := by decide

theorem test_decode_exceptions : wordsDecode
    [(8, 0x03, .undefined 0x03), (8, 0x04, .undefined 0x04), (8, 0xDF, .undefined 0xDF), (8, 0xE0, .undefined 0xE0),
     (8, 0xEF, .undefined 0xEF), (8, 0xFF, .undefined 0xFF)] = true := by decide

/-- A two-byte code with no byte after it, and no byte at all, are no instruction. -/
theorem test_decode_short : decode [0x96] = .error .noOperandByte ∧ decode [] = .error .noBytes := ⟨rfl, rfl⟩

/-! ### Vectors -/

/-- The default start state of 95_test_vectors.md: PC = $20, registers and flags 0, the line low at the coming
boundary; a vector lists the cells it reads (its other cells are 0 there and unspecified here). -/
def start : State := { State.reset with pc := 0x20, flagI := false, boundary := [.line false] }

/-- The bytes placed at increasing addresses. -/
def placed (bytes : List Byte) (adr : Addr) (s : State) : State :=
  match bytes with
  | [] => s
  | b :: rest => placed rest (adr + 1) (placeByte adr b s)

/-- What `f` reads from the state after one step at these bytes. -/
def ending {α : Type} (bytes : List Byte) (s : State) (f : State → α) : α :=
  match step (placed bytes s.pc s) with
  | .next t => f t
  | .fault _ => f s
  | .refused _ => f s

/-- The five flags in the spec's order I N Z V C. -/
def inzvc (t : State) : BitVec 5 :=
  BitVec.ofBool t.flagI ++ BitVec.ofBool t.flagN ++ BitVec.ofBool t.flagZ ++ BitVec.ofBool t.flagV ++ BitVec.ofBool t.flagC

theorem test_V40_15_lda : ending [0xFB] { start with y := 0xFF, mem := [(0x00, 0x01), (0xFF, 0x20)] }
    (fun t => (t.a, t.y, t.pc, inzvc t)) = (0x20, 0x00, 0x21, 0b00000) := by decide

theorem test_V40_19_lda : ending [0xF1, 0xFC] { start with inFC := [0x80] }
    (fun t => (t.a, t.pc, t.events, inzvc t)) = (0x80, 0x22, [.input .fc 0x80], 0b01000) := by decide

theorem test_V40_22_ldx : ending [0xC0, 0x01] { start with x := 0x40, mem := [(0x41, 0x42)] }
    (fun t => (t.x, t.pc, inzvc t)) = (0x42, 0x22, 0b00000) := by decide

theorem test_V40_24_ldy : ending [0xD1, 0x01] { start with y := 0x40, mem := [(0x41, 0x00)] }
    (fun t => (t.y, t.pc, inzvc t)) = (0x00, 0x22, 0b00100) := by decide

theorem test_V40_26_ldsp : ending [0xB2, 0x00] { start with sp := 0xE0, mem := [(0xE0, 0x30)] }
    (fun t => (t.sp, t.pc, inzvc t)) = (0x30, 0x22, 0b00000) := by decide

theorem test_V40_27_leax : ending [0xCC, 0x01] { start with x := 0xFF, flagN := true, flagC := true }
    (fun t => (t.x, t.pc, inzvc t)) = (0x00, 0x22, 0b01001) := by decide

theorem test_V40_30_leay : ending [0xCD, 0xFE] { start with y := 0x41 }
    (fun t => (t.y, t.pc, inzvc t)) = (0x3F, 0x22, 0b00000) := by decide

theorem test_V40_32_leasp : ending [0xBE, 0xFB] { start with sp := 0xF0 }
    (fun t => (t.sp, t.pc, inzvc t)) = (0xEB, 0x22, 0b00000) := by decide

theorem test_V40_44_sta : ending [0xE8] { start with a := 0x11, x := 0x40, mem := [(0x3F, 0x00), (0x40, 0x00)] }
    (fun t => (t.x, t.pc, t.peek 0x3F, inzvc t)) = (0x3F, 0x21, 0x11, 0b00000) := by decide

theorem test_V40_49_sta : ending [0xE1, 0xFB] { start with a := 0xA5 }
    (fun t => (t.pc, t.events, inzvc t)) = (0x22, [.output .fb 0xA5], 0b00000) := by decide

theorem test_V40_51_stx : ending [0x60] { start with a := 0x02, x := 0x40, mem := [(0x42, 0x00)] }
    (fun t => (t.pc, t.peek 0x42, inzvc t)) = (0x21, 0x40, 0b00000) := by decide

theorem test_V40_53_sty : ending [0x61] { start with a := 0x02, x := 0x40, y := 0x99, mem := [(0x42, 0x00)] }
    (fun t => (t.pc, t.peek 0x42, inzvc t)) = (0x21, 0x99, 0b00000) := by decide

theorem test_V40_57_stsp : ending [0x82] { start with a := 0x01, y := 0x40, sp := 0xEE, mem := [(0x41, 0x00)] }
    (fun t => (t.pc, t.peek 0x41, inzvc t)) = (0x21, 0xEE, 0b00000) := by decide

theorem test_V41_1_tfr : ending [0x18] { start with a := 0xFF }
    (fun t => (t.pc, inzvc t)) = (0x21, 0b11111) := by decide

theorem test_V41_6_tfr : ending [0x1A] { start with x := 0x80, y := 0x01, flagZ := true }
    (fun t => (t.y, t.pc, inzvc t)) = (0x80, 0x21, 0b00100) := by decide

theorem test_V41_7_tfr : ending [0x1B] { start with x := 0x80, y := 0x00, flagN := true }
    (fun t => (t.x, t.pc, inzvc t)) = (0x00, 0x21, 0b01000) := by decide

theorem test_V41_8_tfr : ending [0x1C] { start with x := 0xF0, sp := 0x10 }
    (fun t => (t.sp, t.pc, inzvc t)) = (0xF0, 0x21, 0b00000) := by decide

theorem test_V41_9_tfr : ending [0x1D] { start with x := 0x01, sp := 0xE0 }
    (fun t => (t.x, t.pc, inzvc t)) = (0xE0, 0x21, 0b00000) := by decide

theorem test_V41_10_tfr : ending [0x1E] { start with y := 0x7F, sp := 0x10 }
    (fun t => (t.sp, t.pc, inzvc t)) = (0x7F, 0x21, 0b00000) := by decide

theorem test_V41_11_tfr : ending [0x1F] { start with y := 0x01, sp := 0xE0 }
    (fun t => (t.y, t.pc, inzvc t)) = (0xE0, 0x21, 0b00000) := by decide

theorem test_V41_14_exg : ending [0xAF] { start with x := 0x12, y := 0x34, flagC := true }
    (fun t => (t.x, t.y, t.pc, inzvc t)) = (0x34, 0x12, 0x21, 0b00001) := by decide

theorem test_V41_15_exg : ending [0xBF] { start with x := 0x12, sp := 0xF0 }
    (fun t => (t.x, t.sp, t.pc, inzvc t)) = (0xF0, 0x12, 0x21, 0b00000) := by decide

theorem test_V41_16_exg : ending [0xCF] { start with y := 0x00, sp := 0xF0, flagN := true }
    (fun t => (t.y, t.sp, t.pc, inzvc t)) = (0xF0, 0x00, 0x21, 0b01000) := by decide

theorem test_V42_3_jmp : ending [0x63] { start with a := 0xFF, x := 0x81 }
    (fun t => (t.pc, inzvc t)) = (0x80, 0b00000) := by decide

theorem test_V42_8_jsr : ending [0x64] { start with a := 0x02, x := 0x80, sp := 0xF0, mem := [(0xEF, 0x00)] }
    (fun t => (t.sp, t.pc, t.peek 0xEF, inzvc t)) = (0xEF, 0x82, 0x21, 0b00000) := by decide

theorem test_V42_11_jsr : ending [0x34, 0x80] { start with sp := 0x00, mem := [(0xFF, 0x20)] }
    (fun t => (t.sp, t.pc, t.peek 0xFF, inzvc t)) = (0xFF, 0x80, 0x22, 0b00000) := by decide

theorem test_V42_13_bsr : ending [0x20, 0xEE] { start with sp := 0xF0, mem := [(0xEF, 0x00)] }
    (fun t => (t.sp, t.pc, t.peek 0xEF, inzvc t)) = (0xEF, 0x10, 0x22, 0b00000) := by decide

theorem test_V42_14_rts : ending [0x43] { start with sp := 0xEF, flagZ := true, mem := [(0xEF, 0x36)] }
    (fun t => (t.sp, t.pc, inzvc t)) = (0xF0, 0x36, 0b00100) := by decide

theorem test_V42_16_rti : ending [0x44] { start with sp := 0xEB, flagI := true, mem := [(0xEB, 0x09), (0xEC, 0x11), (0xED, 0x22), (0xEE, 0x33), (0xEF, 0x40)] }
    (fun t => (t.a, t.x, t.y, t.sp, t.pc, inzvc t)) = (0x11, 0x22, 0x33, 0xF0, 0x40, 0b01001) := by decide

theorem test_V42_22_bra : ending [0x21, 0x10] { start with pc := 0xFE }
    (fun t => (t.pc, inzvc t)) = (0x10, 0b00000) := by decide

theorem test_V42_23_bmi : ending [0x22, 0x10] { start with flagN := true }
    (fun t => (t.pc, inzvc t)) = (0x32, 0b01000) := by decide

theorem test_V42_26_bpl : ending [0x23, 0x10] { start with flagN := true }
    (fun t => (t.pc, inzvc t)) = (0x22, 0b01000) := by decide

theorem test_V42_27_beq : ending [0x24, 0x10] { start with flagZ := true }
    (fun t => (t.pc, inzvc t)) = (0x32, 0b00100) := by decide

theorem test_V42_30_bne : ending [0x25, 0xF0] { start with flagZ := true }
    (fun t => (t.pc, inzvc t)) = (0x22, 0b00100) := by decide

theorem test_V42_31_bvs : ending [0x26, 0x10] { start with flagV := true }
    (fun t => (t.pc, inzvc t)) = (0x32, 0b00010) := by decide

theorem test_V42_34_bvc : ending [0x27, 0x10] { start with flagV := true }
    (fun t => (t.pc, inzvc t)) = (0x22, 0b00010) := by decide

theorem test_V42_35_bcs : ending [0x28, 0x10] { start with flagC := true }
    (fun t => (t.pc, inzvc t)) = (0x32, 0b00001) := by decide

theorem test_V42_38_bcc : ending [0x29, 0x10] { start with flagC := true }
    (fun t => (t.pc, inzvc t)) = (0x22, 0b00001) := by decide

theorem test_V42_41_bhi : ending [0x2A, 0x10] { start with flagZ := true }
    (fun t => (t.pc, inzvc t)) = (0x22, 0b00100) := by decide

theorem test_V42_43_bls : ending [0x2B, 0x10] { start with flagZ := true }
    (fun t => (t.pc, inzvc t)) = (0x32, 0b00100) := by decide

theorem test_V42_45_bgt : ending [0x2C, 0x10] { start with flagN := true, flagV := true }
    (fun t => (t.pc, inzvc t)) = (0x32, 0b01010) := by decide

theorem test_V42_50_bge : ending [0x2D, 0x10] { start with flagV := true }
    (fun t => (t.pc, inzvc t)) = (0x22, 0b00010) := by decide

theorem test_V42_52_ble : ending [0x2E, 0x10] { start with flagN := true }
    (fun t => (t.pc, inzvc t)) = (0x32, 0b01000) := by decide

theorem test_V42_56_blt : ending [0x2F, 0x10] { start with flagN := true, flagV := true }
    (fun t => (t.pc, inzvc t)) = (0x22, 0b01010) := by decide

theorem test_V43_6_adda : ending [0xC6, 0x00] { start with a := 0xF0, x := 0x40, mem := [(0x40, 0x20)] }
    (fun t => (t.a, t.pc, inzvc t)) = (0x10, 0x22, 0b00001) := by decide

theorem test_V43_11_adca : ending [0xC5, 0x01] { start with a := 0x10, x := 0x40, flagC := true, mem := [(0x41, 0x22)] }
    (fun t => (t.a, t.pc, inzvc t)) = (0x33, 0x22, 0b00000) := by decide

theorem test_V43_13_suba : ending [0x94, 0x01] { start with a := 0x80 }
    (fun t => (t.a, t.pc, inzvc t)) = (0x7F, 0x22, 0b00010) := by decide

theorem test_V43_20_sbca : ending [0x93, 0x7F] { start with a := 0x80 }
    (fun t => (t.a, t.pc, inzvc t)) = (0x01, 0x22, 0b00010) := by decide

theorem test_V43_23_clra : ending [0x05] { start with a := 0x9C, flagI := true, flagN := true, flagV := true, flagC := true }
    (fun t => (t.a, t.pc, inzvc t)) = (0x00, 0x21, 0b10100) := by decide

theorem test_V43_26_clr : ending [0x35, 0xFC] start
    (fun t => (t.pc, t.events, inzvc t)) = (0x22, [.output .fc 0x00], 0b00100) := by decide

theorem test_V43_29_nega : ending [0x06] { start with a := 0x80 }
    (fun t => (t.pc, inzvc t)) = (0x21, 0b01011) := by decide

theorem test_V43_31_neg : ending [0x76, 0x00] { start with y := 0x40, mem := [(0x40, 0x7F)] }
    (fun t => (t.pc, t.peek 0x40, inzvc t)) = (0x22, 0x81, 0b01001) := by decide

theorem test_V43_32_inca : ending [0x07] { start with a := 0x7F, flagC := true }
    (fun t => (t.a, t.pc, inzvc t)) = (0x80, 0x21, 0b01011) := by decide

theorem test_V43_36_inc : ending [0x37, 0xFB] { start with inFB := [0x41] }
    (fun t => (t.pc, t.events, inzvc t)) = (0x22, [.input .fb 0x41, .output .fb 0x42], 0b00000) := by decide

theorem test_V43_37_deca : ending [0x08] { start with a := 0x80, flagC := true }
    (fun t => (t.a, t.pc, inzvc t)) = (0x7F, 0x21, 0b00011) := by decide

theorem test_V43_40_dec : ending [0x48, 0x02] { start with sp := 0xE0, mem := [(0xE2, 0x10)] }
    (fun t => (t.pc, t.peek 0xE2, inzvc t)) = (0x22, 0x0F, 0b00000) := by decide

theorem test_V44_4_cmpa : ending [0x97, 0x80] { start with a := 0x7F }
    (fun t => (t.pc, inzvc t)) = (0x22, 0b01011) := by decide

theorem test_V44_9_cmpx : ending [0xBC, 0x00] { start with x := 0x80, sp := 0xE0, mem := [(0xE0, 0x01)] }
    (fun t => (t.pc, inzvc t)) = (0x22, 0b00010) := by decide

theorem test_V44_11_cmpy : ending [0xAD, 0x40] { start with y := 0x01, mem := [(0x40, 0x02)] }
    (fun t => (t.pc, inzvc t)) = (0x22, 0b01001) := by decide

theorem test_V44_13_cmpsp : ending [0xAE, 0x40] { start with sp := 0xF0, mem := [(0x40, 0x70)] }
    (fun t => (t.pc, inzvc t)) = (0x22, 0b01000) := by decide

theorem test_V44_14_bita : ending [0x98, 0x80] { start with a := 0xC3, flagV := true, flagC := true }
    (fun t => (t.pc, inzvc t)) = (0x22, 0b01001) := by decide

theorem test_V44_18_tsta : ending [0x09] { start with a := 0x80, flagZ := true, flagV := true, flagC := true }
    (fun t => (t.pc, inzvc t)) = (0x21, 0b01000) := by decide

theorem test_V44_21_tst : ending [0x49, 0x01] { start with sp := 0xE0, flagV := true, mem := [(0xE1, 0x00)] }
    (fun t => (t.pc, inzvc t)) = (0x22, 0b00100) := by decide

theorem test_V45_1_anda : ending [0x99, 0x0F] { start with a := 0xF5, flagV := true, flagC := true }
    (fun t => (t.a, t.pc, inzvc t)) = (0x05, 0x22, 0b00001) := by decide

theorem test_V45_6_ora : ending [0x9A, 0x00] { start with a := 0x00, flagN := true, flagC := true }
    (fun t => (t.pc, inzvc t)) = (0x22, 0b00101) := by decide

theorem test_V45_10_eora : ending [0xBB, 0x01] { start with a := 0x0F, sp := 0xE0, mem := [(0xE1, 0x03)] }
    (fun t => (t.a, t.pc, inzvc t)) = (0x0C, 0x22, 0b00000) := by decide

theorem test_V45_11_andcc : ending [0x01, 0xEF] { start with flagI := true, flagN := true, flagC := true }
    (fun t => (t.pc, inzvc t)) = (0x22, 0b01001) := by decide

theorem test_V45_16_orcc : ending [0x02, 0xFF] start
    (fun t => (t.pc, inzvc t)) = (0x22, 0b11111) := by decide

theorem test_V45_17_coma : ending [0x0A] { start with a := 0x55, flagV := true }
    (fun t => (t.a, t.pc, inzvc t)) = (0xAA, 0x21, 0b01000) := by decide

theorem test_V45_21_com : ending [0x6A] { start with a := 0x01, x := 0x40, flagV := true, mem := [(0x41, 0xFF)] }
    (fun t => (t.pc, t.peek 0x41, inzvc t)) = (0x21, 0x00, 0b00100) := by decide

theorem test_V46_1_asra : ending [0x0F] { start with a := 0x81, flagV := true }
    (fun t => (t.a, t.pc, inzvc t)) = (0xC0, 0x21, 0b01001) := by decide

theorem test_V46_6_asr : ending [0x6F] { start with a := 0x03, x := 0x40, mem := [(0x43, 0x03)] }
    (fun t => (t.pc, t.peek 0x43, inzvc t)) = (0x21, 0x01, 0b00001) := by decide

theorem test_V46_9_lsla : ending [0x0B] { start with a := 0xC0 }
    (fun t => (t.a, t.pc, inzvc t)) = (0x80, 0x21, 0b01001) := by decide

theorem test_V46_11_lsl : ending [0x5B, 0x02] { start with x := 0x40, mem := [(0x42, 0x55)] }
    (fun t => (t.pc, t.peek 0x42, inzvc t)) = (0x22, 0xAA, 0b01010) := by decide

theorem test_V46_12_lsra : ending [0x0C] { start with a := 0x81, flagN := true }
    (fun t => (t.a, t.pc, inzvc t)) = (0x40, 0x21, 0b00011) := by decide

theorem test_V46_15_lsr : ending [0x4C, 0x01] { start with sp := 0xE0, mem := [(0xE1, 0xFF)] }
    (fun t => (t.pc, t.peek 0xE1, inzvc t)) = (0x22, 0x7F, 0b00011) := by decide

theorem test_V46_17_rola : ending [0x0D] { start with a := 0x40, flagC := true }
    (fun t => (t.a, t.pc, inzvc t)) = (0x81, 0x21, 0b01010) := by decide

theorem test_V46_20_rol : ending [0x3D, 0x40] { start with flagC := true, mem := [(0x40, 0xC0)] }
    (fun t => (t.pc, t.peek 0x40, inzvc t)) = (0x22, 0x81, 0b01001) := by decide

theorem test_V46_22_rora : ending [0x0E] { start with a := 0x00, flagC := true }
    (fun t => (t.a, t.pc, inzvc t)) = (0x80, 0x21, 0b01010) := by decide

theorem test_V46_25_ror : ending [0x7E, 0x00] { start with y := 0x40, flagC := true, mem := [(0x40, 0x02)] }
    (fun t => (t.pc, t.peek 0x40, inzvc t)) = (0x22, 0x81, 0b01010) := by decide

theorem test_V47_2_psha : ending [0x10] { start with a := 0x5A, sp := 0x00, mem := [(0xFF, 0x20)] }
    (fun t => (t.sp, t.pc, t.peek 0xFF, inzvc t)) = (0xFF, 0x21, 0x5A, 0b00000) := by decide

theorem test_V47_3_psha : ending [0x10] { start with a := 0x5A, sp := 0xFD }
    (fun t => (t.sp, t.pc, t.events, inzvc t)) = (0xFC, 0x21, [.output .fc 0x5A], 0b00000) := by decide

theorem test_V47_4_pshx : ending [0x11] { start with x := 0x12, sp := 0xF0, mem := [(0xEF, 0x00)] }
    (fun t => (t.sp, t.pc, t.peek 0xEF, inzvc t)) = (0xEF, 0x21, 0x12, 0b00000) := by decide

theorem test_V47_5_pshy : ending [0x12] { start with y := 0x34, sp := 0xE0, mem := [(0xDF, 0x00)] }
    (fun t => (t.sp, t.pc, t.peek 0xDF, inzvc t)) = (0xDF, 0x21, 0x34, 0b00000) := by decide

theorem test_V47_11_pula : ending [0x14] { start with sp := 0xFF, mem := [(0xFF, 0x20)] }
    (fun t => (t.a, t.sp, t.pc, inzvc t)) = (0x20, 0x00, 0x21, 0b00000) := by decide

theorem test_V47_9_pulx : ending [0x15] { start with x := 0x55, sp := 0xEF, flagN := true, mem := [(0xEF, 0x00)] }
    (fun t => (t.x, t.sp, t.pc, inzvc t)) = (0x00, 0xF0, 0x21, 0b01000) := by decide

theorem test_V47_10_puly : ending [0x16] { start with sp := 0xEF, mem := [(0xEF, 0x42)] }
    (fun t => (t.y, t.sp, t.pc, inzvc t)) = (0x42, 0xF0, 0x21, 0b00000) := by decide

theorem test_V47_12_pulcc : ending [0x17] { start with sp := 0xEF, mem := [(0xEF, 0xF5)] }
    (fun t => (t.sp, t.pc, inzvc t)) = (0xF0, 0x21, 0b10101) := by decide

theorem test_V48_2_nop : ending [0x00] { start with pc := 0xFF }
    (fun t => (t.pc, inzvc t)) = (0x00, 0b00000) := by decide

/-- V41.4, V47.6: CC as a byte is $15 but for bits 7..5, whatever they are. -/
theorem test_V41_4_cc_byte :
    ∀ h, { start with flagI := true, flagZ := true, flagC := true }.ccByte h &&& 0x1F = 0x15 := by decide

/-- The start state of V60.1 and V60.3. -/
def framed : State := { start with a := 0x11, x := 0x22, y := 0x33, sp := 0xF0, flagN := true, flagC := true }

/-- V60.1: the interrupt leaves SP = $EB, I = 1 and the registers as they were. -/
theorem test_V60_1_irq : ending [0x00] { framed with boundary := [.line true] }
    (fun t => (t.sp, t.a, t.x, t.y, inzvc t)) = (0xEB, 0x11, 0x22, 0x33, 0b11001) := by decide

/-- V60.1: the frame. -/
theorem test_V60_1_frame : ∀ h, let u := pushFrame 0x20 (framed.ccByte h) framed
    (u.peek 0xEB &&& 0x1F, u.peek 0xEC, u.peek 0xED, u.peek 0xEE, u.peek 0xEF) = (0x09, 0x11, 0x22, 0x33, 0x20) := by
  decide

/-- V60.2: the masked interrupt is ignored and the NOP runs. -/
theorem test_V60_2_masked : ending [0x00] { framed with flagI := true, boundary := [.line true] }
    (fun t => (t.pc, t.sp)) = (0x21, 0xF0) := by decide

/-- V60.3: the Trap entry leaves SP = $EB and N, Z, V, C. -/
theorem test_V60_3_trap : ending [0x03] framed
    (fun t => (t.sp, t.flagN, t.flagZ, t.flagV, t.flagC)) = (0xEB, true, false, false, true) := by decide

/-- V60.12: with SP = $02 the CC byte of the frame overwrites the IRQ vector, and PC takes it. -/
theorem test_V60_12_vector_overwritten : ∀ c : Byte,
    (pushFrame 0x20 c { framed with sp := 0x02, mem := [(0xFD, 0x80), (0xFE, 0x90), (0xFF, 0x20)] }).peek 0xFD = c := by
  decide

/-- V60.15: with SP = $FE two of the five pushes are port writes. -/
theorem test_V60_15_frame_on_ports : (pushFrame 0x20 0 { framed with sp := 0xFE }).events =
    [.output .fc 0x33, .output .fb 0x22] := by decide

/-- 30_encoding.md R65: `$2A`, `%101010` and `42` are one number; `-1`, `$FF` and `255` one byte; 256 does not fit. -/
theorem test_numbers : ["$2A", "%101010", "42", "-1", "%2"].map numberOf = [some 42, some 42, some 42, some (-1), none] ∧
    ["-1", "$FF", "255", "-128"].map (fun n => valueOf [] (.number n)) = [.ok 0xFF, .ok 0xFF, .ok 0xFF, .ok 0x80] ∧
    assemble [⟨none, .org (.number "$100")⟩] = .error (.doesNotFit 256) := by decide

/-- P2 of 95_test_vectors.md L3: `JSR $30` at $24, the vector by FCB at $FF. -/
theorem test_assemble : assemble [⟨none, .org (.number "$24")⟩,
    ⟨some "main", .instruction "JSR" (.adr (.symbol "twice"))⟩, ⟨some "twice", .equ (.number "$30")⟩,
    ⟨none, .instruction "BRA" (.adr (.symbol "main"))⟩, ⟨none, .org (.number "$FF")⟩, ⟨none, .fcb [.symbol "main"]⟩] =
    .ok [(0x24, 0x34), (0x25, 0x30), (0x26, 0x21), (0x27, 0xFC), (0xFF, 0x24)] := by decide

/-- R66: FCS gives ASCII codes, RMB leaves its cells unspecified, and a label is the address of the first byte, here past
$FF (log 29). -/
theorem test_directives : assemble [⟨none, .org (.number "254")⟩, ⟨none, .fcs "Hi"⟩,
    ⟨some "room", .rmb (.number "2")⟩, ⟨some "end", .fcb [.symbol "room", .symbol "end", .number "0"]⟩] =
    .ok [(0x02, 0x00), (0x03, 0x02), (0x04, 0x00), (0xFE, 0x48), (0xFF, 0x69)] := by decide

/-- A symbol defined twice is an error (log 29). -/
theorem test_symbol_twice : assemble [⟨some "a", .equ (.number "1")⟩, ⟨some "a", .equ (.number "2")⟩] =
    .error (.symbolDefinedTwice "a") := by decide

/-- R32, R24: a cell that nothing specifies reads as the free content of the image, a written zero as zero. -/
theorem test_unspecified_cell : State.reset.peek 0x40 = Config.image 0x40 ∧ (memWrite 0x40 0x00 State.reset).peek 0x40 = 0x00 ∧
    (memWrite 0x40 0x00 State.reset).peek 0x41 = Config.image 0x41 := ⟨rfl, rfl, rfl⟩

/-- R64, R67 and R60: the operand form selects the mode, BHS is BCC, and JMP has no `n,SP` form. -/
theorem test_codeOf : codeOf "BHS" .adr = some 0x29 ∧ codeOf "EXG" (.pair "A" "CC") = some 0x9F ∧
    codeOf "LDA" (.auto .y .postInc) = some 0xFB ∧ codeOf "JMP" .ns = none := by decide

/-- The first instruction after reset is the one placed with `withFetchWord` (log 9). -/
theorem test_withFetchWord : (match step (State.reset.withFetchWord 16 0x5AF0) with
    | .next t => (t.a, t.pc)
    | _ => (0, 0)) = (0x5A, 0x02) := by decide

/-! ### Witnesses: the hypotheses of each statement are met -/

theorem test_witness_DecodeOfEncodeIsTheInstruction :
    (Instr.lda (.loc (.auto .y .preDec))).wf = true ∧ (Instr.bra 0xFF).wf = true ∧ (Instr.undefined 0xFF).wf = true := by
  decide

theorem test_witness_EncodeOfDecodeIsTheBytes : decode [0x6F, 0x00] = .ok (.asr .ax, [0x00]) := rfl

theorem test_witness_EveryOperationCodeDecodes : (0xFF : Byte) ∈ [0x03, 0x04, 0xE0, 0xDF, 0xEF, (0xFF : Byte)] := by decide

/-- The addresses on both sides of the ports. -/
theorem test_witness_ReadGivesTheLastWrite :
    portOf 0xFA = none ∧ portOf 0xFD = none ∧ portOf 0x00 = none ∧ portOf 0xFF = none ∧ (0xFA : Addr) ≠ 0xFD ∧
      (memWrite 0xFD 0 State.reset).mem.specified 0xFD = some 0 ∧ State.reset.mem.specified 0xFA = none := by decide

theorem test_witness_StepKeepsMemoryCanonical :
    (placed [0x10] 0x20 start).mem.wf = true ∧ ∃ t, step (placed [0x10] 0x20 start) = .next t := ⟨by decide, _, rfl⟩

theorem test_witness_CanonicalMemoryIsTheContents :
    Memory.wf [(0x00, 1), (0xFF, 2)] = true ∧ ∀ adr, Memory.specified [(0x00, 1), (0xFF, 2)] adr = Memory.specified [(0x00, 1), (0xFF, 2)] adr :=
  ⟨by decide, fun _ => rfl⟩

/-- First clause: a two-byte instruction whose operand lies at $00 after the code at $FF. -/
theorem test_witness_StepRunsTheDecodedInstruction :
    fetches { start with pc := 0xFF, mem := [(0x00, 0x8F), (0xFF, 0x21)] } ∧
      holdsAt { start with pc := 0xFF, mem := [(0x00, 0x8F), (0xFF, 0x21)] } 0xFF [0x21, 0x8F] ∧
      decode [0x21, 0x8F] = .ok (.bra 0x8F, []) :=
  ⟨⟨by decide, .inr rfl⟩, ⟨by decide, by decide, by decide, by decide, trivial⟩, rfl⟩

/-- Second clause: an operation code read from port $FB, and one with its operand from port $FC. -/
theorem test_witness_StepRunsTheDecodedInstruction_ports :
    fetches { start with pc := 0xFB, inFB := [0x10] } ∧
      decode [readValue 0xFB { start with pc := 0xFB, inFB := [0x10] }] = .ok (.psha, []) ∧
      decode [readValue 0xFB { start with pc := 0xFB, inFB := [0x21] }, readValue 0xFC { start with inFC := [0x05] }] =
        .ok (.bra 0x05, []) :=
  ⟨⟨by decide, .inr rfl⟩, rfl, rfl⟩

theorem test_witness_InterruptIsEnteredAtTheBoundary :
    lineHigh { framed with boundary := [.line true] } = true ∧ { framed with boundary := [.line true] }.flagI = false := by
  decide

theorem test_witness_UndefinedCodeTakesTrap : (0x03 : Byte) ∈ [0x03, 0x04, 0xE0, 0xDF, 0xEF, (0xFF : Byte)] := by decide

theorem test_witness_ResetJumpsThroughItsVector : { start with boundary := [.reset, .line true] }.boundary = .reset :: [.line true] :=
  rfl

/-- Both clauses; SP = $02 lets the frame wrap from $01 to $FD. -/
theorem test_witness_ExceptionThenReturnRestoresAll :
    lineHigh { framed with sp := 0x02, boundary := [.line true] } = true ∧
      { framed with sp := 0x02, boundary := [.line true] }.flagI = false ∧
      frameClearOfPorts { framed with sp := 0x02, boundary := [.line true] } :=
  ⟨by decide, by decide, by decide, by decide, by decide, by decide, by decide⟩

/-- `BRA *` with the interrupt masked. -/
theorem test_witness_EndedRunRepeats : (placed [0x21, 0xFE] 0x20 { start with flagI := true }).runEnded :=
  ⟨by decide, by decide, .inl (by decide)⟩

/-- The same with the interrupt enabled, where the environment's line stays low: what `Config.irqLine` is cannot be proved, so
it is assumed here. -/
theorem test_witness_EndedRunRepeats_line_low (h : ∀ k, Config.irqLine k = false) :
    (placed [0x33, 0x20] 0x20 start).runEnded :=
  ⟨by decide, by decide, .inr ⟨by decide, fun k _ => h k⟩⟩

theorem test_witness_PortEventsOnlyGrow : ∃ t, step (placed [0xE1, 0xFB] 0x20 start) = .next t := ⟨_, rfl⟩

theorem test_witness_FlagsFollowTheTable : ∃ t, exec .lsra start = .next t := ⟨_, rfl⟩

theorem test_witness_RegistersChangeOnlyWhereListed : (Instr.cmpa (.im 1)).wf = true ∧ (∃ t, exec (.cmpa (.im 1)) start = .next t) ∧
    writesA (.cmpa (.im 1)) = false ∧ writesX (.cmpa (.im 1)) = false ∧ writesY (.cmpa (.im 1)) = false ∧
    writesSP (.cmpa (.im 1)) = false ∧ writesPC (.cmpa (.im 1)) = false :=
  ⟨rfl, ⟨_, rfl⟩, rfl, rfl, rfl, rfl, rfl⟩

theorem test_witness_MemoryChangesOnlyWhereListed : writesMemory (.tst (.ab 0x40)) = false ∧ ∃ t, exec (.tst (.ab 0x40)) start = .next t :=
  ⟨rfl, _, rfl⟩

/-- The statements on LDX to LDSP, ADDA to SBCA, CMPA, BITA, ANDA, ORA and EORA: all five modes. -/
theorem test_witness_five_modes : [Src.im 0xFF, .loc (.ea (.ab 0xFB)), .loc (.ea (.ns 1)), .loc (.ea (.nx 0xFF)),
    .loc (.ea (.ny 0))].all (·.isImOr Ea.isConstantMode) = true := by decide

/-- ComparesSetFlagsOnly, second and third clause. -/
theorem test_witness_ComparesSetFlagsOnly : (Src.loc (.ea (.ns 0xFF))).isImOr Ea.isAbOrNs = true ∧
    (Src.loc (.ea (.ab 0xFC))).isImOr Ea.isAb = true := by decide

/-- JmpGoesToTheAddress and JsrPushesTheReturnAddress: all five modes. -/
theorem test_witness_jump_modes :
    [Ea.ab 0xFB, .nx 0xFF, .ax, .ny 0, .ay].all Ea.isJumpMode = true := by decide

theorem test_witness_AssembledBranchReachesItsTarget : let s := { start with pc := 0xF0, mem := [(0xF0, 0x21), (0xF1, 0x12)] }
    fetches s ∧ holdsAt s 0xF0 [0x21, branchOffset 0xF0 0x04] ∧ s.pc = 0xF0 :=
  ⟨⟨by decide, .inr rfl⟩, ⟨by decide, by decide, by decide, by decide, trivial⟩, rfl⟩

theorem test_witness_NopDoesNothing : fetches { start with pc := 0xFF } ∧ holdsAt { start with pc := 0xFF } 0xFF [0x00] :=
  ⟨⟨by decide, .inr rfl⟩, ⟨by decide, by decide, trivial⟩⟩

theorem test_witness_CyclesAreTwoToSix : Instr.cycles .rti = some 6 ∧ Instr.cycles (.lda (.im 0)) = some 2 := by decide

end Sys2Proof.Tests
end

section
/-!
The instruction rules against the ALU's function table (95_test_vectors.md L1.1, log 25): one lemma per row of the table
that an instruction uses. The rows that add (INC, DEC, ADD, SUB) go through one fact, that the table's adder is `add8`.
-/

namespace Sys2Proof.Proofs.AluTable

open Sys2Proof.Machine

/-! ### Results with one flag replaced -/

theorem ofByte_with_c (r : Byte) (v c c' : Bool) :
    { Result.ofByte r v c with c := c' } = Result.ofByte r v c' := rfl

theorem ofByte_with_v_c (r : Byte) (v v' c c' : Bool) :
    { Result.ofByte r v c with v := v', c := c' } = Result.ofByte r v' c' := rfl

/-! ### The adder -/

/-- Note (2)'s formula says that D and F have one sign and U the other (R6). -/
theorem aluOverflow_eq (d f u : Byte) : aluOverflow d f u = (d.msb == f.msb && u.msb != d.msb) := by
  have bit7 (b : Byte) : b.getLsbD 7 = b.msb := rfl
  simp only [aluOverflow, bit7]
  cases d.msb <;> cases f.msb <;> cases u.msb <;> rfl

/-- Two bytes and a carry add to at most 511, so the quotient by 256 is the carry out. -/
theorem sum_div_256_eq_one_iff (d f : Byte) (cin : Bool) :
    (d.toNat + f.toNat + cin.toNat) / 256 = 1 ↔ 256 ≤ d.toNat + f.toNat + cin.toNat := by
  have hc := cin.toNat_le
  omega

/-- The table's adder is the source's addition (R6). -/
theorem aluSum_eq_add8 (d f : Byte) (cin : Bool) : aluSum d f cin = add8 d f cin := by
  simp only [aluSum, add8, aluOverflow_eq, sum_div_256_eq_one_iff]

/-- The low byte of a sum as a sum of bytes. -/
theorem ofNat_sum (a b : Byte) (cin : Bool) :
    BitVec.ofNat 8 (a.toNat + b.toNat + cin.toNat) = a + b + BitVec.ofNat 8 cin.toNat := by
  simp [BitVec.ofNat_add]

theorem add8_eq (a b : Byte) (cin : Bool) :
    add8 a b cin = Result.ofByte (a + b + BitVec.ofNat 8 cin.toNat)
      (a.msb == b.msb && (a + b + BitVec.ofNat 8 cin.toNat).msb != a.msb)
      (decide (256 ≤ a.toNat + b.toNat + cin.toNat)) := by
  simp only [add8, ofNat_sum]

/-! ### Subtraction: D plus the complement of E plus the inverted borrow (R7, C13) -/

theorem toNat_add_not (a b : Byte) (bin : Bool) :
    ((a.toNat + (~~~b).toNat + (!bin).toNat : Nat) : Int) = a.toNat - b.toNat - bin.toNat + 256 := by
  have hb := b.isLt
  cases bin <;> simp only [BitVec.toNat_not, Bool.not_true, Bool.not_false, Bool.toNat_true, Bool.toNat_false] <;> omega

theorem difference_eq_sum (a b : Byte) (bin : Bool) :
    BitVec.ofInt 8 ((a.toNat : Int) - b.toNat - bin.toNat) =
      BitVec.ofNat 8 (a.toNat + (~~~b).toNat + (!bin).toNat) := by
  have hsum := toNat_add_not a b bin
  apply BitVec.eq_of_toNat_eq
  rw [toNat_ofInt8, BitVec.toNat_ofNat]
  omega

/-- The borrow is the inverse of the adder's carry. -/
theorem borrow_eq_not_carry (a b : Byte) (bin : Bool) :
    decide ((a.toNat : Int) - b.toNat - bin.toNat < 0) =
      !decide (256 ≤ a.toNat + (~~~b).toNat + (!bin).toNat) := by
  have hsum := toNat_add_not a b bin
  rw [← decide_not, decide_eq_decide]
  omega

theorem msb_bne_eq_beq_not (a b : Byte) : (a.msb != b.msb) = (a.msb == (~~~b).msb) := by
  rw [BitVec.msb_not]
  cases a.msb <;> cases b.msb <;> rfl

theorem sub8_eq_add8_not (a b : Byte) (bin : Bool) :
    sub8 a b bin = { add8 a (~~~b) (!bin) with c := !(add8 a (~~~b) (!bin)).c } := by
  simp only [sub8, difference_eq_sum, borrow_eq_not_carry, msb_bne_eq_beq_not a b]
  rfl

theorem sub8_eq_alu (a m : Byte) (c : Bool) :
    sub8 a m c = { alu .sub a m (!c) with c := !(alu .sub a m (!c)).c } := by
  simp only [alu, aluSum_eq_add8]
  exact sub8_eq_add8_not a m c

theorem add8_eq_alu (a m : Byte) (c : Bool) : add8 a m c = alu .add a m c :=
  (aluSum_eq_add8 a m c).symm

/-! ### Increment and decrement -/

/-- The overflow of a sum in unsigned values: one sign in, the other sign out. -/
theorem overflow_iff (a b r : Byte) :
    (a.msb == b.msb && r.msb != a.msb) = true ↔
      (128 ≤ a.toNat ↔ 128 ≤ b.toNat) ∧ ¬(128 ≤ r.toNat ↔ 128 ≤ a.toNat) := by
  simp only [msb_eq, Bool.and_eq_true, beq_iff_eq, bne_iff_ne, ne_eq, decide_eq_decide]

theorem beq_ofNat_iff (m : Byte) (k : Nat) : (m == BitVec.ofNat 8 k) = true ↔ m.toNat = k % 256 := by
  simp only [beq_iff_eq, BitVec.toNat_eq, BitVec.toNat_ofNat, Nat.reducePow]

/-- Adding 1 overflows at $7F only (R180). -/
theorem overflow_inc (m : Byte) : (m.msb == (0 : Byte).msb && (m + 1).msb != m.msb) = (m == 0x7F) := by
  have hm := m.isLt
  have hsum : (m + 1).toNat = (m.toNat + 1) % 256 := BitVec.toNat_add m 1
  have hzero : (0 : Byte).toNat = 0 := rfl
  rw [Bool.eq_iff_iff, overflow_iff, hsum, hzero, show (0x7F : Byte) = BitVec.ofNat 8 0x7F from rfl, beq_ofNat_iff]
  omega

/-- Adding $FF overflows at $80 only (R178). -/
theorem overflow_dec (m : Byte) : (m.msb == (0xFF : Byte).msb && (m + 0xFF).msb != m.msb) = (m == 0x80) := by
  have hm := m.isLt
  have hsum : (m + 0xFF).toNat = (m.toNat + 0xFF) % 256 := BitVec.toNat_add m 0xFF
  have hff : (0xFF : Byte).toNat = 0xFF := rfl
  rw [Bool.eq_iff_iff, overflow_iff, hsum, hff, show (0x80 : Byte) = BitVec.ofNat 8 0x80 from rfl, beq_ofNat_iff]
  omega

theorem incOp_eq_alu (m e : Byte) (c : Bool) : incOp m c = { alu .incD m e true with c := c } := by
  have hsum : m + 0 + BitVec.ofNat 8 true.toNat = m + 1 := by simp
  simp only [alu, aluSum_eq_add8, add8_eq, hsum, overflow_inc, ofByte_with_c]
  rfl

theorem decOp_eq_alu (m e : Byte) (c : Bool) : decOp m c = { alu .decD m e c with c := c } := by
  have hsum : m + 0xFF + BitVec.ofNat 8 false.toNat = m + 0xFF := by simp
  have hdiff : m - 1 = m + 0xFF := BitVec.sub_eq_add_neg m 1
  simp only [alu, aluSum_eq_add8, add8_eq, hsum, overflow_dec, ofByte_with_c, decOp, hdiff]

/-! ### Complement -/

theorem negOp_eq_alu (m e : Byte) (c : Bool) : negOp m c = alu .complementD m e true := by
  have hneg : 0 - m = ~~~m + BitVec.ofNat 8 true.toNat :=
    (BitVec.zero_sub m).trans (BitVec.neg_eq_not_add m)
  simp only [negOp, alu, hneg]

theorem comOp_eq_alu (m e : Byte) (c : Bool) :
    comOp m c = { alu .complementD m e false with v := false, c := c } := by
  have hnot : ~~~m + BitVec.ofNat 8 false.toNat = ~~~m := BitVec.add_zero _
  simp only [comOp, alu, hnot, ofByte_with_v_c]

/-! ### Shifts: the bit shifted in meets a zero, so `+` and `|||` agree -/

/-- A bit as a byte has that bit at position 0 and zeros above. -/
theorem getLsbD_bit (b : Bool) (i : Nat) : (BitVec.ofNat 8 b.toNat).getLsbD i = (decide (i = 0) && b) := by
  cases b <;> simp

theorem shiftLeft_add_bit (m : Byte) (b : Bool) :
    (m <<< 1) + BitVec.ofNat 8 b.toNat = (m <<< 1) ||| BitVec.ofNat 8 b.toNat := by
  apply BitVec.add_eq_or_of_and_eq_zero
  apply BitVec.eq_of_getLsbD_eq
  intro i hi
  by_cases h0 : i = 0 <;> simp [getLsbD_bit, h0]

/-- The weight of bit 7 is 128. -/
theorem bit_shiftLeft_seven (b : Bool) : BitVec.ofNat 8 (128 * b.toNat) = BitVec.ofNat 8 b.toNat <<< 7 := by
  cases b <;> rfl

theorem shiftRight_add_bit (m : Byte) (b : Bool) :
    (m >>> 1) + BitVec.ofNat 8 (128 * b.toNat) = (BitVec.ofNat 8 b.toNat <<< 7) ||| (m >>> 1) := by
  rw [bit_shiftLeft_seven, BitVec.or_comm]
  apply BitVec.add_eq_or_of_and_eq_zero
  apply BitVec.eq_of_getLsbD_eq
  intro i hi
  by_cases h7 : i = 7
  · simp [h7]
  · have hlow : i < 7 := by omega
    simp [hlow]

/-- The mask $80 keeps bit 7 alone. -/
theorem getLsbD_mask (m : Byte) (i : Nat) : (m &&& 0x80).getLsbD i = (m.getLsbD i && decide (i = 7)) := by
  rw [BitVec.getLsbD_and, show (0x80 : Byte) = BitVec.twoPow 8 7 from rfl, BitVec.getLsbD_twoPow]
  simp [eq_comm]

/-- A right shift that copies bit 7 keeps bit 7 and shifts the others (R210). -/
theorem sshiftRight_one_eq (m : Byte) : m.sshiftRight 1 = (m &&& (0x80 : Byte)) ||| (m >>> 1) := by
  apply BitVec.eq_of_getLsbD_eq
  intro i hi
  rw [BitVec.getLsbD_or, getLsbD_mask, BitVec.getLsbD_ushiftRight, BitVec.getLsbD_sshiftRight]
  by_cases h7 : i = 7
  · simp [h7, BitVec.msb_eq_getLsbD_last]
  · have hlow : i < 7 := by omega
    have hin : 1 + i < 8 := by omega
    simp [h7, hin, hi, Nat.not_le.mpr hi]

theorem rolOp_eq_alu (m e : Byte) (c : Bool) : rolOp m c = alu .shiftLeft m e c := by
  simp only [rolOp, alu, shiftLeft_add_bit]

theorem rorOp_eq_alu (m e : Byte) (c : Bool) : rorOp m c = alu .shiftRight m e c := by
  simp only [rorOp, alu, shiftRight_add_bit]

/-- LSL is ROL with 0 shifted in (R212, R216). -/
theorem lslOp_eq_rolOp (m : Byte) (c : Bool) : lslOp m c = rolOp m false := by
  have hor : m <<< 1 ||| BitVec.ofNat 8 false.toNat = m <<< 1 := BitVec.or_zero
  simp only [lslOp, rolOp, hor]

/-- LSR is ROR with 0 shifted in (R214, R218). -/
theorem lsrOp_eq_rorOp (m : Byte) (c : Bool) : lsrOp m c = rorOp m false := by
  have hor : BitVec.ofNat 8 false.toNat <<< 7 ||| m >>> 1 = m >>> 1 := BitVec.zero_or
  simp only [lsrOp, rorOp, hor, Bool.false_xor]

theorem asrOp_eq_alu (m e : Byte) (c : Bool) : asrOp m c = alu .shiftRightArith m e c := by
  simp only [alu, sshiftRight_one_eq]
  rfl

/-! ### The obligation -/

/-- Settles O47, row by row of the ALU's table. The rows that only pass, combine or name a byte (AND, OR, EOR, TST, CLR and
the three vector constants) are written alike in both accounts, so they hold by definition. -/
theorem flagsAgreeWithTheAluTable : Obligations.FlagsAgreeWithTheAluTable := by
  intro a m e c
  exact ⟨add8_eq_alu a m c, sub8_eq_alu a m c, negOp_eq_alu m e c, incOp_eq_alu m e c, decOp_eq_alu m e c,
    comOp_eq_alu m e c, rfl, rfl, rfl, rfl, rfl,
    (lslOp_eq_rolOp m c).trans (rolOp_eq_alu m e false), rolOp_eq_alu m e c,
    (lsrOp_eq_rorOp m c).trans (rorOp_eq_alu m e false), rorOp_eq_alu m e c, asrOp_eq_alu m e c, rfl, rfl, rfl⟩

end Sys2Proof.Proofs.AluTable
end

section
/-!
What the state family needs of one instruction: from "exec has a next state with this property" to "the next state exec
gives has it", and the branches as one write of PC.
-/

namespace Sys2Proof.Proofs.Execution

open Sys2Proof.Machine

/-- `exec` is a function, so what one next state of an instruction is known to have, every next state has. -/
theorem of_exec_next {i : Instr} {s t : State} {P : State → Prop} (hex : ∃ u, exec i s = .next u ∧ P u)
    (ht : exec i s = .next t) : P t := by
  obtain ⟨u, hu, hP⟩ := hex
  obtain rfl : u = t := Host.Outcome.next.inj (hu.symm.trans ht)
  exact hP

/-- A conditional branch writes PC and nothing else (42_flow_control.md R160). -/
theorem branchIf_eq (taken : Bool) (offset : Byte) (s : State) :
    branchIf taken offset s = s.setPC (if taken then branchTarget offset s else s.pc) := by
  cases taken <;> rfl

end Sys2Proof.Proofs.Execution
end

section
/-!
The flag table (10_state.md R28). Every instruction that computes flags ends in `setFlags` of a result or in
`setLoadFlags` of a byte, so a row of the table is a fact about that result; the other rows keep all flags or write all.
-/

namespace Sys2Proof.Proofs.FlagTable

open Sys2Proof.Machine Sys2Proof.Claims Sys2Proof.Proofs.Execution

/-- The flags of the state before and after obey a row of the table (columns I, N, Z, V, C). -/
def FlagsObey (row : FlagEffect × FlagEffect × FlagEffect × FlagEffect × FlagEffect) (s t : State) : Prop :=
  row.1.obeyed s.flagI t.flagI ∧ row.2.1.obeyed s.flagN t.flagN ∧ row.2.2.1.obeyed s.flagZ t.flagZ ∧
    row.2.2.2.1.obeyed s.flagV t.flagV ∧ row.2.2.2.2.obeyed s.flagC t.flagC

/-- A result's flags obey the columns N, Z, V, C, measured against the flags of the state before. -/
def ResultObeys (n z v c : FlagEffect) (f : Result) (s : State) : Prop :=
  n.obeyed s.flagN f.n ∧ z.obeyed s.flagZ f.z ∧ v.obeyed s.flagV f.v ∧ c.obeyed s.flagC f.c

variable {s t : State} {n z v c : FlagEffect}

/-! ### Rows of one kind -/

theorem flagsObey_keeps (h : flags t = flags s) : FlagsObey (.keeps, .keeps, .keeps, .keeps, .keeps) s t := by
  simpa only [FlagsObey, FlagEffect.obeyed, flags, Prod.mk.injEq] using h

theorem flagsObey_writes (s t : State) : FlagsObey (.writes, .writes, .writes, .writes, .writes) s t :=
  ⟨trivial, trivial, trivial, trivial, trivial⟩

/-- The flags of a load: N and Z follow the byte, V is cleared (40_load_store.md R100). -/
theorem flagsObey_setLoadFlags (b : Byte) (hi : t.flagI = s.flagI) (hc : t.flagC = s.flagC) :
    FlagsObey (.keeps, .writes, .writes, .clears, .keeps) s (t.setLoadFlags b) :=
  ⟨hi, trivial, trivial, rfl, hc⟩

/-! ### Rows of a computed result -/

theorem flagsObey_setFlags {f : Result} (hi : t.flagI = s.flagI) (hf : ResultObeys n z v c f s) :
    FlagsObey (.keeps, n, z, v, c) s (t.setFlags f) := ⟨hi, hf⟩

theorem flagsObey_operateA {op : Byte → Byte → Bool → Result} (o : Src)
    (hf : ∀ a m, ResultObeys n z v c (op a m s.flagC) s) : FlagsObey (.keeps, n, z, v, c) s (operateA op o s) :=
  flagsObey_setFlags (by simp) (hf _ _)

theorem flagsObey_testAgainst {op : Byte → Byte → Bool → Result} (reg : Byte) (o : Src)
    (hf : ∀ a m, ResultObeys n z v c (op a m s.flagC) s) :
    FlagsObey (.keeps, n, z, v, c) s (testAgainst op reg o s) :=
  flagsObey_setFlags (by simp) (hf _ _)

theorem flagsObey_rewriteA {op : Byte → Bool → Result} (hf : ∀ m, ResultObeys n z v c (op m s.flagC) s) :
    FlagsObey (.keeps, n, z, v, c) s (rewriteA op s) :=
  flagsObey_setFlags rfl (hf _)

theorem flagsObey_rewriteMemory {op : Byte → Bool → Result} (m : Ea)
    (hf : ∀ m, ResultObeys n z v c (op m s.flagC) s) : FlagsObey (.keeps, n, z, v, c) s (rewriteMemory op m s) :=
  flagsObey_setFlags (by simp) (hf _)

theorem resultObeys_writes (f : Result) (s : State) : ResultObeys .writes .writes .writes .writes f s :=
  ⟨trivial, trivial, trivial, trivial⟩

/-- The columns of ANDA, ORA, EORA, BITA, COMA, COM: V cleared, C kept. -/
theorem resultObeys_logical (r : Byte) (s : State) :
    ResultObeys .writes .writes .clears .keeps (.ofByte r false s.flagC) s := ⟨trivial, trivial, rfl, rfl⟩

/-- The columns of INCA, INC, DECA, DEC: C kept. -/
theorem resultObeys_count (r : Byte) (overflow : Bool) (s : State) :
    ResultObeys .writes .writes .writes .keeps (.ofByte r overflow s.flagC) s := ⟨trivial, trivial, trivial, rfl⟩

theorem resultObeys_clrOp (m : Byte) (cold : Bool) (s : State) :
    ResultObeys .clears .sets .clears .clears (clrOp m cold) s := ⟨rfl, rfl, rfl, rfl⟩

theorem resultObeys_tstOp (m : Byte) (cold : Bool) (s : State) :
    ResultObeys .writes .writes .clears .clears (tstOp m cold) s := ⟨trivial, trivial, rfl, rfl⟩

theorem resultObeys_asrOp (m : Byte) (cold : Bool) (s : State) :
    ResultObeys .writes .writes .clears .writes (asrOp m cold) s := ⟨trivial, trivial, rfl, trivial⟩

/-- A logical shift to the right moves 0 into bit 7, so N is cleared (46_shift_rotate.md R214, R215). -/
theorem resultObeys_lsrOp (m : Byte) (cold : Bool) (s : State) :
    ResultObeys .clears .writes .writes .writes (lsrOp m cold) s := by
  have hbit7 : negative (m >>> 1) = false := by simp [negative, BitVec.msb_ushiftRight]
  exact ⟨hbit7, trivial, trivial, trivial⟩

/-! ### The obligation -/

/-- The case split goes along the rows of the table, in its order. -/
theorem exec_obeys_flagTable (i : Instr) (s : State) :
    ∃ t, exec i s = .next t ∧ FlagsObey (flagTable i) s t := by
  cases i with
  | lda | ldx | ldy | ldsp => exact ⟨_, rfl, flagsObey_setLoadFlags _ (by simp) (by simp)⟩
  | leax | leay | leasp | sta | stx | sty | stsp => exact ⟨_, rfl, flagsObey_keeps (by simp [flags])⟩
  | tfrAToCC | exgACC => exact ⟨_, rfl, flagsObey_writes _ _⟩
  | tfrCCToA | tfrXToY | tfrYToX | tfrXToSP | tfrSPToX | tfrYToSP | tfrSPToY | exgXY | exgXSP | exgYSP =>
    exact ⟨_, rfl, flagsObey_keeps rfl⟩
  | jmp | jsr | bra | bsr | rts => exact ⟨_, rfl, flagsObey_keeps (by simp [flags])⟩
  | bmi | bpl | beq | bne | bvs | bvc | bcs | bcc | bhi | bls | bgt | bge | ble | blt =>
    exact ⟨_, rfl, flagsObey_keeps (by simp [flags, branchIf_eq])⟩
  | rti => exact ⟨_, rfl, flagsObey_writes _ _⟩
  | adda o | adca o | suba o | sbca o => exact ⟨_, rfl, flagsObey_operateA o fun _ _ => resultObeys_writes _ s⟩
  | nega => exact ⟨_, rfl, flagsObey_rewriteA fun _ => resultObeys_writes _ s⟩
  | neg m => exact ⟨_, rfl, flagsObey_rewriteMemory m fun _ => resultObeys_writes _ s⟩
  | clra => exact ⟨_, rfl, flagsObey_rewriteA fun _ => resultObeys_clrOp _ _ s⟩
  | clr => exact ⟨_, rfl, flagsObey_setFlags (by simp) (resultObeys_clrOp _ _ s)⟩
  | inca | deca => exact ⟨_, rfl, flagsObey_rewriteA fun _ => resultObeys_count _ _ s⟩
  | inc m | dec m => exact ⟨_, rfl, flagsObey_rewriteMemory m fun _ => resultObeys_count _ _ s⟩
  | cmpa o | cmpx o | cmpy o | cmpsp o =>
    exact ⟨_, rfl, flagsObey_testAgainst _ o fun _ _ => resultObeys_writes _ s⟩
  | bita o => exact ⟨_, rfl, flagsObey_testAgainst _ o fun _ _ => resultObeys_logical _ s⟩
  | tsta | tst => exact ⟨_, rfl, flagsObey_setFlags (by simp) (resultObeys_tstOp _ _ s)⟩
  | anda o | ora o | eora o => exact ⟨_, rfl, flagsObey_operateA o fun _ _ => resultObeys_logical _ s⟩
  | coma => exact ⟨_, rfl, flagsObey_rewriteA fun _ => resultObeys_logical _ s⟩
  | com m => exact ⟨_, rfl, flagsObey_rewriteMemory m fun _ => resultObeys_logical _ s⟩
  | andcc | orcc => exact ⟨_, rfl, flagsObey_writes _ _⟩
  | asra => exact ⟨_, rfl, flagsObey_rewriteA fun _ => resultObeys_asrOp _ _ s⟩
  | asr m => exact ⟨_, rfl, flagsObey_rewriteMemory m fun _ => resultObeys_asrOp _ _ s⟩
  | lsla | rola | rora => exact ⟨_, rfl, flagsObey_rewriteA fun _ => resultObeys_writes _ s⟩
  | lsl m | rol m | ror m => exact ⟨_, rfl, flagsObey_rewriteMemory m fun _ => resultObeys_writes _ s⟩
  | lsra => exact ⟨_, rfl, flagsObey_rewriteA fun _ => resultObeys_lsrOp _ _ s⟩
  | lsr m => exact ⟨_, rfl, flagsObey_rewriteMemory m fun _ => resultObeys_lsrOp _ _ s⟩
  | psha | pshx | pshy | pshcc | pula | pulx | puly => exact ⟨_, rfl, flagsObey_keeps (by simp [flags])⟩
  | pulcc => exact ⟨_, rfl, flagsObey_writes _ _⟩
  | nop => exact ⟨_, rfl, flagsObey_keeps rfl⟩
  | undefined =>
    obtain ⟨-, -, -, -, -, hn, hz, hv, hc⟩ := enterException_regs .trap s.pc s
    exact ⟨_, rfl, trivial, hn, hz, hv, hc⟩

/-- Settles O19, from the row of each instruction. -/
theorem flagsFollowTheTable : Obligations.FlagsFollowTheTable :=
  fun i s _ ht => of_exec_next (exec_obeys_flagTable i s) ht

end Sys2Proof.Proofs.FlagTable
end

section
/-!
The register frames (10_state.md R11 to R14): the shared operations by the registers they keep, then every instruction by
the registers it writes.
-/

namespace Sys2Proof.Proofs.RegisterFrames

open Sys2Proof.Machine Sys2Proof.Claims Sys2Proof.Proofs.Execution

/-- A, X, Y, SP and PC are as before, but for those marked as written. -/
def KeepsAllBut (a x y sp pc : Bool) (s t : State) : Prop :=
  (a = false → t.a = s.a) ∧ (x = false → t.x = s.x) ∧ (y = false → t.y = s.y) ∧ (sp = false → t.sp = s.sp) ∧
    (pc = false → t.pc = s.pc)

variable {s : State}

/-! ### The shared shapes -/

theorem keepsAllBut_of_regs_eq {s t : State} (h : regs t = regs s) : KeepsAllBut false false false false false s t := by
  simpa [regs, KeepsAllBut] using h

theorem operateA_keepsAllBut_a {p : Ea → Bool} {o : Src} (ho : o.isImOr p = true)
    (op : Byte → Byte → Bool → Result) : KeepsAllBut true false false false false s (operateA op o s) := by
  obtain ⟨hx, hy⟩ := afterSrc_xy s ho
  simp [KeepsAllBut, operateA, hx, hy]

theorem rewriteA_keepsAllBut_a (op : Byte → Bool → Result) :
    KeepsAllBut true false false false false s (rewriteA op s) := by
  simp [KeepsAllBut, rewriteA]

theorem regs_rewriteMemory (op : Byte → Bool → Result) (m : Ea) : regs (rewriteMemory op m s) = regs s := by
  simp [regs, rewriteMemory]

theorem regs_testAgainst {p : Ea → Bool} {o : Src} (ho : o.isImOr p = true) (op : Byte → Byte → Bool → Result)
    (reg : Byte) : regs (testAgainst op reg o s) = regs s := by
  obtain ⟨hx, hy⟩ := afterSrc_xy s ho
  simp [regs, testAgainst, hx, hy]

theorem branchIf_keepsAllBut_pc (taken : Bool) (offset : Byte) :
    KeepsAllBut false false false false true s (branchIf taken offset s) := by
  simp [KeepsAllBut, branchIf_eq]

theorem push_keepsAllBut_sp (v : Byte) : KeepsAllBut false false false true false s (push v s) := by
  simp [KeepsAllBut]

/-! ### Operands that do not update an index register (30_encoding.md R59) -/

theorem index_afterRead (adr : Addr) (s : State) (r : Index) : (afterRead adr s).index r = s.index r := by
  cases r
  · exact afterRead_x adr s
  · exact afterRead_y adr s

theorem index_afterUpdate_of_not_updates {l : Loc} {r : Index} (h : Loc.updates r l = false) :
    (afterUpdate l s).index r = s.index r := by
  cases l with
  | ea => rfl
  | auto q k =>
    have hne : r ≠ q := by
      rintro rfl
      simp [Loc.updates] at h
    simp [afterUpdate, hne]

theorem index_afterSrc_of_not_updates {o : Src} {r : Index} (h : Src.updates r o = false) :
    (afterSrc o s).index r = s.index r := by
  cases o with
  | im => rfl
  | loc l => exact (index_afterRead _ _ r).trans (index_afterUpdate_of_not_updates h)

theorem lda_keepsAllBut (o : Src) (v : Byte) :
    KeepsAllBut true (Src.updates .x o) (Src.updates .y o) false false s (((afterSrc o s).setA v).setLoadFlags v) :=
  ⟨nofun, index_afterSrc_of_not_updates (r := .x), index_afterSrc_of_not_updates (r := .y), by simp, by simp⟩

theorem sta_keepsAllBut (l : Loc) (adr : Addr) (v : Byte) :
    KeepsAllBut false (Loc.updates .x l) (Loc.updates .y l) false false s (memWrite adr v (afterUpdate l s)) :=
  ⟨by simp, fun h => (memWrite_x _ _ _).trans (index_afterUpdate_of_not_updates (r := .x) h),
    fun h => (memWrite_y _ _ _).trans (index_afterUpdate_of_not_updates (r := .y) h), by simp, by simp⟩

/-! ### The obligation -/

/-- The case split goes by what an instruction writes. -/
theorem exec_keepsAllBut_listed (i : Instr) (s : State) (hwf : i.wf = true) :
    ∃ t, exec i s = .next t ∧ KeepsAllBut (writesA i) (writesX i) (writesY i) (writesSP i) (writesPC i) s t := by
  cases i with
  -- no register
  | nop | andcc | orcc | tfrAToCC => exact ⟨_, rfl, keepsAllBut_of_regs_eq rfl⟩
  | tsta | tst | clr | stx | sty | stsp => exact ⟨_, rfl, keepsAllBut_of_regs_eq (by simp [regs])⟩
  | neg m | inc m | dec m | com m | lsl m | lsr m | rol m | ror m | asr m =>
    exact ⟨_, rfl, keepsAllBut_of_regs_eq (regs_rewriteMemory _ m)⟩
  | cmpa | bita | cmpx | cmpy | cmpsp => exact ⟨_, rfl, keepsAllBut_of_regs_eq (regs_testAgainst hwf _ _)⟩
  -- A
  | clra | nega | inca | deca | coma | lsla | lsra | rola | rora | asra => exact ⟨_, rfl, rewriteA_keepsAllBut_a _⟩
  | sbca | suba | adca | adda | anda | ora | eora => exact ⟨_, rfl, operateA_keepsAllBut_a hwf _⟩
  | tfrCCToA | exgACC => exact ⟨_, rfl, nofun, fun _ => rfl, fun _ => rfl, fun _ => rfl, fun _ => rfl⟩
  -- A, and X or Y in their automatic modes
  | lda o => exact ⟨_, rfl, lda_keepsAllBut o _⟩
  | sta l => exact ⟨_, rfl, sta_keepsAllBut l _ _⟩
  -- X, Y, SP
  | ldx =>
    obtain ⟨-, hy⟩ := afterSrc_xy s hwf
    exact ⟨_, rfl, by simp, nofun, fun _ => hy, by simp, by simp⟩
  | ldy =>
    obtain ⟨hx, -⟩ := afterSrc_xy s hwf
    exact ⟨_, rfl, by simp, fun _ => hx, nofun, by simp, by simp⟩
  | ldsp =>
    obtain ⟨hx, hy⟩ := afterSrc_xy s hwf
    exact ⟨_, rfl, by simp, fun _ => hx, fun _ => hy, nofun, by simp⟩
  | leax | tfrYToX | tfrSPToX => exact ⟨_, rfl, fun _ => rfl, nofun, fun _ => rfl, fun _ => rfl, fun _ => rfl⟩
  | leay | tfrXToY | tfrSPToY => exact ⟨_, rfl, fun _ => rfl, fun _ => rfl, nofun, fun _ => rfl, fun _ => rfl⟩
  | leasp | tfrXToSP | tfrYToSP => exact ⟨_, rfl, fun _ => rfl, fun _ => rfl, fun _ => rfl, nofun, fun _ => rfl⟩
  | exgXY => exact ⟨_, rfl, fun _ => rfl, nofun, nofun, fun _ => rfl, fun _ => rfl⟩
  | exgXSP => exact ⟨_, rfl, fun _ => rfl, nofun, fun _ => rfl, nofun, fun _ => rfl⟩
  | exgYSP => exact ⟨_, rfl, fun _ => rfl, fun _ => rfl, nofun, nofun, fun _ => rfl⟩
  -- SP, and the register pulled
  | psha | pshx | pshy | pshcc => exact ⟨_, rfl, push_keepsAllBut_sp _⟩
  | pula => exact ⟨_, rfl, nofun, by simp, by simp, nofun, by simp⟩
  | pulx => exact ⟨_, rfl, by simp, nofun, by simp, nofun, by simp⟩
  | puly => exact ⟨_, rfl, by simp, by simp, nofun, nofun, by simp⟩
  | pulcc => exact ⟨_, rfl, by simp, by simp, by simp, nofun, by simp⟩
  -- PC
  | jmp | bra => exact ⟨_, rfl, fun _ => rfl, fun _ => rfl, fun _ => rfl, fun _ => rfl, nofun⟩
  | bmi | bpl | beq | bne | bvs | bvc | bcs | bcc | bhi | bls | bgt | bge | ble | blt =>
    exact ⟨_, rfl, branchIf_keepsAllBut_pc _ _⟩
  -- SP and PC
  | jsr | bsr | rts => exact ⟨_, rfl, by simp, by simp, by simp, nofun, nofun⟩
  | undefined =>
    obtain ⟨ha, hx, hy, -⟩ := enterException_regs .trap s.pc s
    exact ⟨_, rfl, fun _ => ha, fun _ => hx, fun _ => hy, nofun, nofun⟩
  -- all five
  | rti => exact ⟨_, rfl, nofun, nofun, nofun, nofun, nofun⟩

/-- Settles O20, from the frame of each instruction. -/
theorem registersChangeOnlyWhereListed : Obligations.RegistersChangeOnlyWhereListed :=
  fun i s _ hwf ht => of_exec_next (exec_keepsAllBut_listed i s hwf) ht

end Sys2Proof.Proofs.RegisterFrames
end

section
/-!
The step at a boundary that fetches (10_state.md R25 to R27) and the state after reset (R24): what a boundary decides, what
a decoded string of bytes says of the opcode map, and the fetch of one and of two bytes.
-/

namespace Sys2Proof.Proofs.FetchAndReset

open Sys2Proof.Machine Sys2Proof.Claims

/-! ### The boundary -/

/-- With no Reset, the boundary takes the interrupt exactly when the line is high and I = 0 (60_exceptions.md R253). -/
theorem boundaryEvent_of_no_reset {s : State} (h : s.boundary.head? ≠ some .reset) :
    s.boundaryEvent = if !s.flagI && lineHigh s then some .irq else none := by
  unfold State.boundaryEvent lineHigh
  match hb : s.boundary with
  | [] => rfl
  | .line _ :: _ => rfl
  | .reset :: _ => exact absurd (by rw [hb]; rfl) h

theorem boundaryEvent_of_fetches {s : State} (h : fetches s) : s.boundaryEvent = none := by
  obtain ⟨hreset, hmasked⟩ := h
  rw [boundaryEvent_of_no_reset hreset]
  rcases hmasked with hI | hlow
  · simp [hI]
  · simp [hlow]

theorem step_of_fetches {s : State} (h : fetches s) :
    step s = exec (fetch s.passBoundary).1 (fetch s.passBoundary).2 := by
  rw [step, boundaryEvent_of_fetches h]

/-! ### Decoding without a rest -/

/-- What decodes with nothing left over is a one-byte operation code, or a two-byte one and its operand byte. -/
theorem decode_eq_ok_nil {bytes : List Byte} {i : Instr} (h : decode bytes = .ok (i, [])) :
    (∃ op, bytes = [op] ∧ entryOf op = .one i) ∨ ∃ op b k, bytes = [op, b] ∧ entryOf op = .two k ∧ k b = i := by
  match bytes with
  | [] => cases h
  | op :: rest =>
    rw [decode] at h
    split at h
    · obtain ⟨rfl, rfl⟩ : _ = i ∧ rest = [] := by simpa using h
      exact .inl ⟨op, rfl, ‹_›⟩
    · split at h
      · cases h
      · obtain ⟨rfl, rfl⟩ : _ = i ∧ _ = [] := by simpa using h
        exact .inr ⟨op, _, _, rfl, ‹_›, rfl⟩

theorem entryOf_of_decode_one {op : Byte} {i : Instr} (h : decode [op] = .ok (i, [])) : entryOf op = .one i := by
  obtain ⟨_, heq, hentry⟩ | ⟨_, _, _, heq, -, -⟩ := decode_eq_ok_nil h
  · cases heq
    exact hentry
  · cases heq

theorem entryOf_of_decode_two {op b : Byte} {i : Instr} (h : decode [op, b] = .ok (i, [])) :
    ∃ k, entryOf op = .two k ∧ k b = i := by
  obtain ⟨_, heq, -⟩ | ⟨_, _, k, heq, hentry⟩ := decode_eq_ok_nil h
  · cases heq
  · cases heq
    exact ⟨k, hentry⟩

/-! ### Fetching -/

theorem fetch_of_decode_one {s : State} {i : Instr} (h : decode [readValue s.pc s] = .ok (i, [])) :
    fetch s = (i, (fetchByte s).2) := by
  have hentry : entryOf (fetchByte s).1 = .one i := entryOf_of_decode_one h
  rw [fetch, hentry]

theorem fetch_of_decode_two {s : State} {i : Instr}
    (h : decode [readValue s.pc s, (fetchByte (fetchByte s).2).1] = .ok (i, [])) :
    fetch s = (i, (fetchByte (fetchByte s).2).2) := by
  obtain ⟨k, hentry, hi⟩ := entryOf_of_decode_two h
  have hcode : entryOf (fetchByte s).1 = .two k := hentry
  rw [fetch, hcode, ← hi]

/-- The state after the fetch of two bytes: the second read is at the next address. -/
theorem fetchByte_fetchByte_snd (s : State) :
    (fetchByte (fetchByte s).2).2 = { afterRead (s.pc + 1) (fetchByte s).2 with pc := s.pc + 2 } := by
  have hpc : s.pc + 1 + 1 = s.pc + 2 := by rw [BitVec.add_assoc]; rfl
  rw [← hpc]
  rfl

/-! ### The obligations -/

/-- The second clause of O10: bytes read from anywhere. -/
theorem step_of_decode_read {s : State} (h : fetches s) :
    (∀ i, decode [readValue s.pc s.passBoundary] = .ok (i, []) → step s = exec i (fetchByte s.passBoundary).2) ∧
    ∀ i, decode [readValue s.pc s.passBoundary, readValue (s.pc + 1) (fetchByte s.passBoundary).2] = .ok (i, []) →
      step s = exec i { afterRead (s.pc + 1) (fetchByte s.passBoundary).2 with pc := s.pc + 2 } := by
  constructor
  · intro i hi
    rw [step_of_fetches h, fetch_of_decode_one (s := s.passBoundary) hi]
  · intro i hi
    rw [step_of_fetches h, fetch_of_decode_two (s := s.passBoundary) hi, fetchByte_fetchByte_snd]
    rfl

/-- A byte fetched from a memory cell is the cell's content, and only PC moves. -/
theorem fetchByte_of_cell {s : State} (h : portOf s.pc = none) : fetchByte s = (s.peek s.pc, s.setPC (s.pc + 1)) := by
  rw [fetchByte, readValue_of_cell h, afterRead_of_cell h]

/-- The first clause of O10: bytes that stand in memory. -/
theorem step_of_decode_held {s : State} {bytes : List Byte} {i : Instr} (h : fetches s)
    (hheld : holdsAt s s.pc bytes) (hi : decode bytes = .ok (i, [])) :
    step s = exec i { s.passBoundary with pc := s.pc + BitVec.ofNat 8 bytes.length } := by
  obtain ⟨hone, htwo⟩ := step_of_decode_read h
  obtain ⟨op, rfl, -⟩ | ⟨op, b, k, rfl, -, -⟩ := decode_eq_ok_nil hi
  · obtain ⟨hp, rfl, -⟩ := hheld
    have hop : readValue s.pc s.passBoundary = s.peek s.pc := readValue_of_cell hp _
    rw [hone i (by rwa [hop]), fetchByte_of_cell (s := s.passBoundary) hp]
    rfl
  · obtain ⟨hp, rfl, hp', rfl, -⟩ := hheld
    have hop : readValue s.pc s.passBoundary = s.peek s.pc := readValue_of_cell hp _
    have hoperand : readValue (s.pc + 1) (fetchByte s.passBoundary).2 = s.peek (s.pc + 1) := by
      rw [readValue_of_cell hp', fetchByte_of_cell (s := s.passBoundary) hp]
      rfl
    rw [htwo i (by rwa [hop, hoperand]), afterRead_of_cell hp', fetchByte_of_cell (s := s.passBoundary) hp]
    rfl

/-- Settles O10: bytes held in memory, and bytes read from anywhere. -/
theorem stepRunsTheDecodedInstruction : Obligations.StepRunsTheDecodedInstruction :=
  ⟨fun _ _ _ h hheld hi => step_of_decode_held h hheld hi, fun _ h => step_of_decode_read h⟩

/-- Settles O14: both reset states take PC from their own cell $FF. -/
theorem resetStartsAtTheResetVector : Obligations.ResetStartsAtTheResetVector :=
  ⟨rfl, fun _ => ⟨rfl, rfl⟩⟩

end Sys2Proof.Proofs.FetchAndReset
end

section
/-!
What one instruction and one step do to the cells and to the record of port events, said once: their next state is reached
by reads, writes and updates of other fields. The canonical form, the growth of the record and the memory frame
(20_memory.md R32, R33, R38) follow from what one access does.
-/

namespace Sys2Proof.Proofs.MemoryAccesses

open Sys2Proof.Machine Sys2Proof.Claims Sys2Proof.Proofs.Execution

/-- At most one access: an update of other fields, a MemRead, or, where `writes` allows it, a MemWrite. -/
inductive Access (writes : Bool) (s : State) : State → Prop where
  | update {t : State} (hmem : t.mem = s.mem) (hevents : t.events = s.events) : Access writes s t
  | read (adr : Addr) : Access writes s (afterRead adr s)
  | write (adr : Addr) (v : Byte) (hwrites : writes = true) : Access writes s (memWrite adr v s)

/-- Any number of accesses, with updates of other fields between them. -/
def Accesses (writes : Bool) : State → State → Prop := Relation.ReflTransGen (Access writes)

variable {writes : Bool} {s t u : State}

/-! ### Chains of accesses -/

theorem Accesses.refl (s : State) : Accesses writes s s := Relation.ReflTransGen.refl

theorem Accesses.trans (hst : Accesses writes s t) (htu : Accesses writes t u) : Accesses writes s u :=
  Relation.ReflTransGen.trans hst htu

theorem Accesses.thenUpdate (h : Accesses writes s t) (hmem : u.mem = t.mem) (hevents : u.events = t.events) :
    Accesses writes s u := h.tail (.update hmem hevents)

theorem Accesses.thenRead (h : Accesses writes s t) (adr : Addr) : Accesses writes s (afterRead adr t) :=
  h.tail (.read adr)

theorem Accesses.thenWrite (h : Accesses true s t) (adr : Addr) (v : Byte) : Accesses true s (memWrite adr v t) :=
  h.tail (.write adr v rfl)

theorem accesses_of_same (hmem : t.mem = s.mem) (hevents : t.events = s.events) : Accesses writes s t :=
  (Accesses.refl s).thenUpdate hmem hevents

theorem Access.allowWrites (h : Access writes s t) : Access true s t := by
  cases h with
  | update hmem hevents => exact .update hmem hevents
  | read adr => exact .read adr
  | write adr v => exact .write adr v rfl

theorem Accesses.allowWrites (h : Accesses writes s t) : Accesses true s t :=
  Relation.ReflTransGen.mono (fun _ _ => Access.allowWrites) _ _ h

/-! ### What the accesses keep -/

theorem Accesses.wf (h : Accesses writes s t) (hwf : s.mem.wf = true) : t.mem.wf = true := by
  induction h with
  | refl => exact hwf
  | tail _ hone ih =>
    cases hone with
    | update hmem => rwa [hmem]
    | read adr => rwa [afterRead_mem]
    | write adr v => exact wf_memWrite adr v _ ih

theorem Accesses.events_grow (h : Accesses writes s t) : s.events <+: t.events := by
  induction h with
  | refl => exact ⟨[], List.append_nil _⟩
  | tail _ hone ih =>
    refine ih.trans ?_
    cases hone with
    | update _ hevents => exact ⟨[], by rw [hevents, List.append_nil]⟩
    | read adr => exact ⟨_, (events_afterRead adr _).symm⟩
    | write adr v => exact ⟨_, (events_memWrite adr v _).symm⟩

/-- With no write among the accesses, no cell changes. -/
theorem Accesses.mem_eq (h : Accesses false s t) : t.mem = s.mem := by
  induction h with
  | refl => rfl
  | tail _ hone ih =>
    rw [← ih]
    cases hone with
    | update hmem => exact hmem
    | read adr => exact afterRead_mem adr _
    | write _ _ hwrites => exact absurd hwrites Bool.false_ne_true

/-! ### The shared operations -/

theorem Accesses.thenSrc (h : Accesses writes s t) (o : Src) : Accesses writes s (afterSrc o t) := by
  cases o with
  | im => exact h
  | loc l => exact (h.thenUpdate (afterUpdate_mem t l) (afterUpdate_events t l)).thenRead _

theorem accesses_afterSrc (o : Src) : Accesses writes s (afterSrc o s) := (Accesses.refl s).thenSrc o

theorem accesses_operateA (op : Byte → Byte → Bool → Result) (o : Src) : Accesses writes s (operateA op o s) :=
  (accesses_afterSrc o).thenUpdate rfl rfl

theorem accesses_testAgainst (op : Byte → Byte → Bool → Result) (reg : Byte) (o : Src) :
    Accesses writes s (testAgainst op reg o s) :=
  (accesses_afterSrc o).thenUpdate rfl rfl

theorem accesses_rewriteMemory (op : Byte → Bool → Result) (m : Ea) : Accesses true s (rewriteMemory op m s) :=
  (((Accesses.refl s).thenRead _).thenWrite _ _).thenUpdate rfl rfl

theorem accesses_branchIf (taken : Bool) (offset : Byte) : Accesses writes s (branchIf taken offset s) := by
  rw [branchIf_eq]
  exact accesses_of_same rfl rfl

theorem Accesses.thenPush (h : Accesses true s t) (v : Byte) : Accesses true s (push v t) :=
  (h.thenUpdate (u := t.setSP (t.sp - 1)) rfl rfl).thenWrite _ _

theorem accesses_push (v : Byte) : Accesses true s (push v s) := (Accesses.refl s).thenPush v

/-- A pull, and an update of other fields with the byte it gives. -/
theorem Accesses.thenPull (h : Accesses writes s t) (put : Byte → State → State)
    (hmem : ∀ v r, (put v r).mem = r.mem := by intros; rfl)
    (hevents : ∀ v r, (put v r).events = r.events := by intros; rfl) :
    Accesses writes s (put (pull t).1 (pull t).2) :=
  ((h.thenRead t.sp).thenUpdate (u := (pull t).2) rfl rfl).thenUpdate (hmem _ _) (hevents _ _)

theorem Accesses.thenFrame (h : Accesses true s t) (ret c : Byte) : Accesses true s (pushFrame ret c t) :=
  ((((h.thenPush _).thenPush _).thenPush _).thenPush _).thenPush _

theorem Accesses.thenVector (h : Accesses writes s t) (v : Addr) : Accesses writes s (jumpThroughVector v t) :=
  (h.thenRead v).thenUpdate rfl rfl

theorem Accesses.thenException (h : Accesses true s t) (e : Event) (ret : Byte) :
    Accesses true s (enterException e ret t) :=
  have hframe : Accesses true s (pushFrame ret (readCC t).1 (readCC t).2) :=
    (h.thenUpdate (u := (readCC t).2) rfl rfl).thenFrame ret _
  (hframe.thenUpdate (State.setI_mem _ _) (State.setI_events _ _)).thenVector _

theorem accesses_returnFromException (s : State) : Accesses writes s (returnFromException s) :=
  (((((Accesses.refl s).thenPull writeCC).thenPull State.setA).thenPull State.setX).thenPull State.setY).thenPull
    State.setPC

theorem Accesses.thenReset (h : Accesses writes s t) : Accesses writes s (resetSequence t) :=
  (h.thenVector _).thenUpdate rfl rfl

theorem Accesses.thenFetchByte (h : Accesses writes s t) : Accesses writes s (fetchByte t).2 :=
  (h.thenRead _).thenUpdate rfl rfl

/-- A fetch is one read, or two (10_state.md R25, R27). -/
theorem Accesses.thenFetch (h : Accesses writes s t) : Accesses writes s (fetch t).2 := by
  unfold fetch
  split
  · exact h.thenFetchByte
  · exact h.thenFetchByte.thenFetchByte

/-! ### Every instruction, and the step -/

/-- The case split goes by the accesses of an instruction. -/
theorem exec_accesses (i : Instr) (s : State) : ∃ t, exec i s = .next t ∧ Accesses (writesMemory i) s t := by
  cases i with
  -- no access
  | nop | andcc | orcc | clra | nega | inca | deca | tsta | coma | lsla | lsra | rola | rora | asra | tfrAToCC
  | tfrCCToA | tfrXToY | tfrYToX | tfrXToSP | tfrSPToX | tfrYToSP | tfrSPToY | exgACC | exgXY | exgXSP | exgYSP
  | leax | leay | leasp | jmp | bra =>
    exact ⟨_, rfl, accesses_of_same rfl rfl⟩
  | bmi | bpl | beq | bne | bvs | bvc | bcs | bcc | bhi | bls | bgt | bge | ble | blt =>
    exact ⟨_, rfl, accesses_branchIf _ _⟩
  -- reads
  | lda o | ldx o | ldy o | ldsp o => exact ⟨_, rfl, (accesses_afterSrc o).thenUpdate rfl rfl⟩
  | sbca o | suba o | adca o | adda o | anda o | ora o | eora o => exact ⟨_, rfl, accesses_operateA _ o⟩
  | cmpa o | bita o | cmpx o | cmpy o | cmpsp o => exact ⟨_, rfl, accesses_testAgainst _ _ o⟩
  | tst m => exact ⟨_, rfl, ((Accesses.refl s).thenRead (eaOf m s)).thenUpdate rfl rfl⟩
  | pula => exact ⟨_, rfl, (Accesses.refl s).thenPull State.setA⟩
  | pulx => exact ⟨_, rfl, (Accesses.refl s).thenPull State.setX⟩
  | puly => exact ⟨_, rfl, (Accesses.refl s).thenPull State.setY⟩
  | pulcc => exact ⟨_, rfl, (Accesses.refl s).thenPull writeCC⟩
  | rts => exact ⟨_, rfl, (Accesses.refl s).thenPull State.setPC⟩
  | rti => exact ⟨_, rfl, accesses_returnFromException s⟩
  -- writes
  | sta l => exact ⟨_, rfl, (accesses_of_same (afterUpdate_mem s l) (afterUpdate_events s l)).thenWrite _ _⟩
  | stx | sty | stsp => exact ⟨_, rfl, (Accesses.refl s).thenWrite _ _⟩
  | clr m => exact ⟨_, rfl, ((Accesses.refl s).thenWrite (eaOf m s) 0).thenUpdate rfl rfl⟩
  | neg m | inc m | dec m | com m | lsl m | lsr m | rol m | ror m | asr m =>
    exact ⟨_, rfl, accesses_rewriteMemory _ m⟩
  | psha | pshx | pshy => exact ⟨_, rfl, accesses_push _⟩
  | pshcc => exact ⟨_, rfl, (accesses_of_same (s := s) (t := (readCC s).2) rfl rfl).thenPush _⟩
  | jsr | bsr => exact ⟨_, rfl, (accesses_push s.pc).thenUpdate rfl rfl⟩
  | undefined => exact ⟨_, rfl, (Accesses.refl s).thenException .trap s.pc⟩

/-- A step passes the boundary, and then makes a reset, an exception entry, or a fetch and an instruction. -/
theorem step_accesses (h : step s = .next t) : Accesses true s t := by
  have hpass : Accesses true s s.passBoundary := accesses_of_same rfl rfl
  unfold step at h
  split at h
  · cases h
    exact hpass.thenReset
  · cases h
    exact hpass.thenException _ _
  · exact hpass.thenFetch.trans (of_exec_next (exec_accesses _ _) h).allowWrites

/-! ### The obligations -/

/-- Settles O8: each access of a step keeps the canonical form. -/
theorem stepKeepsMemoryCanonical : Obligations.StepKeepsMemoryCanonical :=
  fun _ _ hwf hstep => (step_accesses hstep).wf hwf

/-- Settles O18: each access of a step only appends to the record. -/
theorem portEventsOnlyGrow : Obligations.PortEventsOnlyGrow :=
  fun _ _ hstep => (step_accesses hstep).events_grow

/-- Settles O21: the accesses of such an instruction are reads. -/
theorem memoryChangesOnlyWhereListed : Obligations.MemoryChangesOnlyWhereListed := by
  intro i s t hlisted hexec adr
  have haccesses : Accesses (writesMemory i) s t := of_exec_next (exec_accesses i s) hexec
  rw [hlisted] at haccesses
  simp only [State.peek, haccesses.mem_eq]

end Sys2Proof.Proofs.MemoryAccesses
end

section
/-!
MemRead and MemWrite of one address (20_memory.md R32, R33): of a memory cell, and of a port.
-/

namespace Sys2Proof.Proofs.CellsAndPorts

open Sys2Proof.Machine Sys2Proof.Claims

/-! ### A memory cell -/

theorem memRead_of_cell {adr : Addr} (h : portOf adr = none) (s : State) : memRead adr s = (s.peek adr, s) := by
  rw [memRead, readValue_of_cell h, afterRead_of_cell h]

theorem peek_memWrite_self {adr : Addr} (h : portOf adr = none) (v : Byte) (s : State) :
    (memWrite adr v s).peek adr = v := by
  simp [peek_memWrite, h]

theorem peek_memWrite_of_ne {adr b : Addr} (h : b ≠ adr) (v : Byte) (s : State) :
    (memWrite adr v s).peek b = s.peek b := by
  simp [peek_memWrite, h]

/-- Settles O5: a read of a cell is its content, and a write sets one cell. -/
theorem readGivesTheLastWrite : Obligations.ReadGivesTheLastWrite := by
  intro s adr v hcell
  refine ⟨?lastWrite, memRead_of_cell hcell s, fun _ => peek_of_specified, ?free,
    fun b hb => peek_memWrite_of_ne hb v s, ?frame⟩
  case lastWrite => rw [memRead_of_cell hcell, peek_memWrite_self hcell]
  case free =>
    intro hfree b w hb
    rw [memRead_of_cell hcell, peek_memWrite_of_ne hb.symm, peek_of_unspecified hfree]
  case frame =>
    rw [memWrite_of_cell hcell]
    rfl

/-! ### A port -/

theorem readValue_of_port {adr : Addr} {p : Port} (h : portOf adr = some p) (s : State) :
    readValue adr s = s.portInput p := by
  rw [readValue, h]

/-- PORT_IN: the scheduled byte if there is one, else the free value of this draw (R33, D7). -/
theorem portInput_eq_headD (s : State) (p : Port) :
    s.portInput p = (s.scheduled p).headD (Config.portIn p s.draws) := by
  unfold State.portInput
  cases s.scheduled p <;> rfl

theorem takeInput_tookInput (p : Port) (s : State) : tookInput p s (s.takeInput p) := by
  refine ⟨takeInput_boundary p s, fun q => ?_, by simp [State.takeInput]⟩
  have hscheduled : (s.takeInput p).scheduled q = (s.setScheduled p (s.scheduled p).tail).scheduled q := by
    cases q <;> rfl
  rw [hscheduled, State.scheduled_setScheduled]
  split
  · next h => rw [h]
  · rfl

/-- A read of a port takes one input and leaves every cell. -/
theorem didRead_of_port {adr : Addr} {p : Port} (h : portOf adr = some p) (s : State) :
    didRead adr s (afterRead adr s) := by
  refine ⟨fun b => peek_afterRead adr b s, ?_⟩
  rw [events_afterRead, afterRead_of_port h, h]
  exact ⟨takeInput_tookInput p s, rfl⟩

/-- A write to a port does not change what a later read gives (R33: it "stores nothing"). -/
theorem readValue_memWrite_of_port {adr : Addr} {p : Port} (h : portOf adr = some p) (b : Addr) (v : Byte) (s : State) :
    readValue b (memWrite adr v s) = readValue b s := by
  rw [memWrite_of_port h]
  exact readValue_congr b rfl rfl rfl rfl

/-- Settles O6: the input side, the output side, and which addresses are ports. -/
theorem portsAreInputAndOutput : Obligations.PortsAreInputAndOutput := by
  intro s p v
  have hport : portOf (portAddress p) = some p := portOf_portAddress p
  exact ⟨(readValue_of_port hport s).trans (portInput_eq_headD s p), didRead_of_port hport s, by simp [regs, memRead],
    by simp [flags, memRead], memWrite_of_port hport v s, readValue_memWrite_of_port hport _ v s, portOf_portAddress,
    portOf_eq_none_iff⟩

end Sys2Proof.Proofs.CellsAndPorts
end

section
/-!
The canonical form of the memory list (log 5) is a normal form: the specified bytes determine the list.
-/

namespace Sys2Proof.Proofs.CanonicalMemory

open Sys2Proof.Machine

variable {lo a b : Nat} {v w : Byte} {m k : Memory}

theorem wfFrom_cons_iff : Memory.wfFrom lo ((a, v) :: m) = true ↔
    lo ≤ a ∧ a < 256 ∧ isPortNumber a = false ∧ m.wfFrom (a + 1) = true := by
  simp [Memory.wfFrom, and_assoc]

theorem specified_cons_self : Memory.specified ((a, v) :: m) a = some v := by
  simp [Memory.specified]

theorem specified_cons_of_ne (h : b ≠ a) : Memory.specified ((a, v) :: m) b = m.specified b := by
  simp [Memory.specified, h.symm]

/-- A canonical list has no cell below its lower bound. -/
theorem specified_eq_none_of_lt (h : m.wfFrom lo = true) (ha : a < lo) : m.specified a = none := by
  induction m generalizing lo with
  | nil => rfl
  | cons cell rest ih =>
    obtain ⟨hlo, -, -, hrest⟩ := wfFrom_cons_iff.mp h
    rw [specified_cons_of_ne (by omega)]
    exact ih hrest (by omega)

theorem specified_tail_head (h : Memory.wfFrom lo ((a, v) :: m) = true) : m.specified a = none := by
  obtain ⟨-, -, -, hrest⟩ := wfFrom_cons_iff.mp h
  exact specified_eq_none_of_lt hrest (Nat.lt_succ_self a)

/-- The first cell of a canonical list is its lowest specified one. -/
theorem head_le_of_specified (h : Memory.wfFrom lo ((a, v) :: m) = true)
    (hb : Memory.specified ((a, v) :: m) b = some w) : a ≤ b := by
  obtain ⟨-, -, -, hrest⟩ := wfFrom_cons_iff.mp h
  by_contra hlt
  rw [specified_cons_of_ne (by omega), specified_eq_none_of_lt hrest (by omega)] at hb
  cases hb

/-- Two canonical lists have the same first cell, the lowest specified one, and then the same rest. -/
theorem eq_of_specified_eq (hm : m.wfFrom lo = true) (hk : k.wfFrom lo = true)
    (h : ∀ x, Memory.specified m x = Memory.specified k x) : m = k := by
  induction m generalizing lo k with
  | nil =>
    cases k with
    | nil => rfl
    | cons cell rest => cases (h cell.1).trans specified_cons_self
  | cons cell m ih =>
    obtain ⟨a, v⟩ := cell
    cases k with
    | nil => cases (h a).symm.trans specified_cons_self
    | cons cell' k =>
      obtain ⟨b, w⟩ := cell'
      have hab : a ≤ b := head_le_of_specified hm ((h b).trans specified_cons_self)
      have hba : b ≤ a := head_le_of_specified hk ((h a).symm.trans specified_cons_self)
      obtain rfl : a = b := Nat.le_antisymm hab hba
      obtain rfl : v = w := by simpa [specified_cons_self] using h a
      have hrest : ∀ x, Memory.specified m x = Memory.specified k x := by
        intro x
        by_cases hx : x = a
        · rw [hx, specified_tail_head hm, specified_tail_head hk]
        · simpa only [specified_cons_of_ne hx] using h x
      obtain ⟨-, -, -, hm'⟩ := wfFrom_cons_iff.mp hm
      obtain ⟨-, -, -, hk'⟩ := wfFrom_cons_iff.mp hk
      rw [ih hm' hk' hrest]

/-- Settles O9: the reset state's one cell is no port, and canonical lists are told apart by their cells. -/
theorem canonicalMemoryIsTheContents : Obligations.CanonicalMemoryIsTheContents :=
  ⟨rfl, fun _ _ hm hk h => eq_of_specified_eq hm hk h⟩

end Sys2Proof.Proofs.CanonicalMemory
end

section
/-!
The decoder and the encoder (30_encoding.md R50, R51, R60 to R63, R69) are inverse to each other. One direction goes by the
instruction and its modes, the other by the columns of the opcode map: each cell holds what the encoder gives its code.
-/

namespace Sys2Proof.Proofs.Encoding

/-! ### The decoder through the opcode map -/

theorem decode_of_entryOf_one {op : Byte} {i : Instr} (h : entryOf op = .one i) (rest : List Byte) :
    decode (op :: rest) = .ok (i, rest) := by
  rw [decode, h]

theorem decode_of_entryOf_two {op : Byte} {k : Byte → Instr} (h : entryOf op = .two k) (b : Byte) (rest : List Byte) :
    decode (op :: b :: rest) = .ok (k b, rest) := by
  rw [decode, h]

/-- Whatever decodes is one byte, a cell of the map, or two bytes, a cell of the map and its operand. -/
theorem entryOf_of_decode {bytes rest : List Byte} {i : Instr} (h : decode bytes = .ok (i, rest)) :
    (∃ op, bytes = op :: rest ∧ entryOf op = .one i) ∨
      ∃ op b k, bytes = op :: b :: rest ∧ entryOf op = .two k ∧ k b = i := by
  cases bytes with
  | nil => cases h
  | cons op tail =>
    cases hentry : entryOf op with
    | one j =>
      obtain ⟨rfl, rfl⟩ : j = i ∧ tail = rest := by simpa [decode_of_entryOf_one hentry] using h
      exact .inl ⟨op, rfl, hentry⟩
    | two k =>
      cases tail with
      | nil => simp [decode, hentry] at h
      | cons b tail =>
        obtain ⟨hi, rfl⟩ : k b = i ∧ tail = rest := by simpa [decode_of_entryOf_two hentry] using h
        exact .inr ⟨op, b, k, rfl, hentry, hi⟩

/-- The decoder looks at no byte after the instruction. -/
theorem decode_append {bytes : List Byte} {i : Instr} (h : decode bytes = .ok (i, [])) (rest : List Byte) :
    decode (bytes ++ rest) = .ok (i, rest) := by
  obtain ⟨op, rfl, hentry⟩ | ⟨op, b, k, rfl, hentry, rfl⟩ := entryOf_of_decode h
  · exact decode_of_entryOf_one hentry rest
  · exact decode_of_entryOf_two hentry b rest

/-! ### The undefined codes (R61) -/

theorem entryOf_undefinedCode {code : Byte} (h : code ∈ undefinedCodes) : entryOf code = .one (.undefined code) := by
  simp only [undefinedCodes, List.mem_cons, List.not_mem_nil, or_false] at h
  rcases h with rfl | rfl | rfl | rfl | rfl | rfl <;> rfl

theorem wf_undefined_iff {code : Byte} : (Instr.undefined code).wf = true ↔ code ∈ undefinedCodes :=
  List.contains_iff_mem

theorem encode_undefined {code : Byte} (h : code ∈ undefinedCodes) : encode (.undefined code) = [code] :=
  if_pos (List.contains_iff_mem.mpr h)

/-- The order in which the statements list the six codes. -/
theorem mem_undefinedCodes_iff {code : Byte} :
    code ∈ undefinedCodes ↔ code ∈ ([0x03, 0x04, 0xE0, 0xDF, 0xEF, 0xFF] : List Byte) := by
  simp only [undefinedCodes, List.mem_cons, List.not_mem_nil, or_false, or_left_comm]

/-! ### Every well-formed instruction decodes from its bytes -/

/-- The operand of a well-formed instruction that has modes im and those of `p` is no automatic one. -/
theorem eq_im_or_ea_of_isImOr {p : Ea → Bool} {o : Src} (h : o.isImOr p = true) :
    (∃ data, o = .im data) ∨ ∃ m, o = .loc (.ea m) ∧ p m = true := by
  rcases o with data | m | ⟨r, k⟩
  · exact .inl ⟨data, rfl⟩
  · exact .inr ⟨m, rfl, h⟩
  · exact absurd h Bool.false_ne_true

/-- The case split goes by the shape of the instruction's row in the encoding tables; in a form that is refused (R60) the
hypothesis is false. -/
theorem decode_encode {i : Instr} (h : i.wf = true) : decode (encode i) = .ok (i, []) := by
  cases i with
  | undefined code =>
    have hcode : code ∈ undefinedCodes := wf_undefined_iff.mp h
    rw [encode_undefined hcode]
    exact decode_of_entryOf_one (entryOf_undefinedCode hcode) []
  -- the six modes of columns 3_ to 8_
  | stx m | sty m | stsp m | clr m | neg m | inc m | dec m | tst m | com m | lsl m | lsr m | rol m | ror m | asr m =>
    cases m <;> rfl
  | jmp m | jsr m =>
    cases m with
    | ns => exact absurd h Bool.false_ne_true
    | ab | nx | ax | ny | ay => rfl
  -- the five modes of columns 9_ to D_
  | ldx o | ldy o | ldsp o | sbca o | suba o | adca o | adda o | cmpa o | bita o | anda o | ora o | eora o =>
    obtain ⟨data, rfl⟩ | ⟨m, rfl, hm⟩ := eq_im_or_ea_of_isImOr h
    · rfl
    · cases m with
      | ax | ay => exact absurd hm Bool.false_ne_true
      | ab | ns | nx | ny => rfl
  | cmpx o | cmpy o =>
    obtain ⟨data, rfl⟩ | ⟨m, rfl, hm⟩ := eq_im_or_ea_of_isImOr h
    · rfl
    · cases m with
      | nx | ax | ny | ay => exact absurd hm Bool.false_ne_true
      | ab | ns => rfl
  | cmpsp o =>
    obtain ⟨data, rfl⟩ | ⟨m, rfl, hm⟩ := eq_im_or_ea_of_isImOr h
    · rfl
    · cases m with
      | ns | nx | ax | ny | ay => exact absurd hm Bool.false_ne_true
      | ab => rfl
  | leax m =>
    cases m with
    | ab | ax | ny | ay => exact absurd h Bool.false_ne_true
    | nx | ns => rfl
  | leay m =>
    cases m with
    | ab | nx | ax | ay => exact absurd h Bool.false_ne_true
    | ny | ns => rfl
  | leasp m =>
    cases m with
    | ab | ax | ay => exact absurd h Bool.false_ne_true
    | ns | nx | ny => rfl
  -- columns E_ and F_
  | sta l =>
    rcases l with m | ⟨r, k⟩
    · cases m <;> rfl
    · cases r <;> cases k <;> rfl
  | lda o =>
    rcases o with data | m | ⟨r, k⟩
    · rfl
    · cases m <;> rfl
    · cases r <;> cases k <;> rfl
  -- one code, with or without an operand byte
  | _ => rfl

/-- Settles O1: the encoded bytes decode, and the decoder looks at no byte after them. -/
theorem decodeOfEncodeIsTheInstruction : Obligations.DecodeOfEncodeIsTheInstruction :=
  fun _ rest h => decode_append (decode_encode h) rest

/-! ### Every cell of the map holds what the encoder gives its code -/

/-- The encoder gives the cell's instructions this operation code, and the operand byte they were made of. -/
def EncodesTo (op : Byte) : Entry → Prop
  | .one i => i.wf = true ∧ encode i = [op]
  | .two k => ∀ b, (k b).wf = true ∧ encode (k b) = [op, b]

/-- The cells of a column encode to the codes from `n` upward. -/
def EncodesFrom : Nat → List Entry → Prop
  | _, [] => True
  | n, e :: es => EncodesTo (BitVec.ofNat 8 n) e ∧ EncodesFrom (n + 1) es

/-- The sixteen columns of the map, each by the encoder's equations for its cells. -/
theorem encodesFrom_column {c : Nat} (hc : c < 16) : EncodesFrom (16 * c) (opcodeMap.getD c []) := by
  interval_cases c <;>
    simp [opcodeMap, mapColumn0, mapColumn1, mapColumn2, mapColumn3, mapColumn4, mapColumn5, mapColumn6, mapColumn7,
      mapColumn8, mapColumn9, mapColumnA, mapColumnB, mapColumnC, mapColumnD, mapColumnE, mapColumnF, EncodesFrom,
      EncodesTo, encode, encodeColumns3to8, encodeColumns9toD, encodeColumnsEF, encodeIf, Instr.wf, undefinedCodes,
      Src.isImOr, Ea.isJumpMode, Ea.isConstantMode, Ea.isAbOrNs, Ea.isNxOrNs, Ea.isNyOrNs, Ea.isIndexedByConstant,
      Ea.isAb]

theorem length_column {c : Nat} (hc : c < 16) : (opcodeMap.getD c []).length = 16 := by
  interval_cases c <;> rfl

theorem EncodesFrom.getD {n r : Nat} {column : List Entry} (h : EncodesFrom n column) (hr : r < column.length)
    (fallback : Entry) : EncodesTo (BitVec.ofNat 8 (n + r)) (column.getD r fallback) := by
  induction column generalizing n r with
  | nil => exact absurd hr (Nat.not_lt_zero r)
  | cons e es ih =>
    obtain ⟨hfirst, hrest⟩ := h
    cases r with
    | zero => exact hfirst
    | succ r =>
      rw [List.getD_cons_succ, ← Nat.succ_add_eq_add_succ]
      exact ih hrest (Nat.lt_of_succ_lt_succ hr)

/-- The cell of every operation code, column and row (R69). -/
theorem encodesTo_entryOf (op : Byte) : EncodesTo op (entryOf op) := by
  have hcolumn : op.toNat / 16 < 16 := by omega
  have hrow : op.toNat % 16 < (opcodeMap.getD (op.toNat / 16) []).length := by
    rw [length_column hcolumn]
    omega
  have hcell := (encodesFrom_column hcolumn).getD hrow (.one (.undefined op))
  rwa [Nat.div_add_mod, BitVec.ofNat_toNat, BitVec.setWidth_eq] at hcell

/-- Settles O2: the bytes read are a cell of the map, with its operand byte where it has one. -/
theorem encodeOfDecodeIsTheBytes : Obligations.EncodeOfDecodeIsTheBytes := by
  intro bytes rest i h
  obtain ⟨op, rfl, hentry⟩ | ⟨op, b, k, rfl, hentry, rfl⟩ := entryOf_of_decode h
  · have hcell := encodesTo_entryOf op
    rw [hentry] at hcell
    obtain ⟨hwf, hbytes⟩ := hcell
    exact ⟨hwf, by rw [hbytes]; rfl⟩
  · have hcell := encodesTo_entryOf op
    rw [hentry] at hcell
    obtain ⟨hwf, hbytes⟩ := hcell b
    exact ⟨hwf, by rw [hbytes]; rfl⟩

/-! ### Every operation code -/

theorem lengthOf_eq_one {op : Byte} {i : Instr} (h : entryOf op = .one i) : lengthOf op = 1 := by
  rw [lengthOf, h]

theorem lengthOf_eq_two {op : Byte} {k : Byte → Instr} (h : entryOf op = .two k) : lengthOf op = 2 := by
  rw [lengthOf, h]

/-- With an operand byte at hand every code decodes, and takes that byte if its length is two (R51, R63). -/
theorem exists_decode (op b : Byte) (rest : List Byte) :
    ∃ i, decode (op :: b :: rest) = .ok (i, if lengthOf op = 2 then rest else b :: rest) ∧
      (lengthOf op = 1 ∨ lengthOf op = 2) := by
  cases hentry : entryOf op with
  | one i =>
    have hlen := lengthOf_eq_one hentry
    exact ⟨i, by rw [decode_of_entryOf_one hentry, hlen]; rfl, .inl hlen⟩
  | two k =>
    have hlen := lengthOf_eq_two hentry
    exact ⟨k b, by rw [decode_of_entryOf_two hentry, hlen]; rfl, .inr hlen⟩

/-- Only an undefined code decodes to the undefined instruction: the instruction's one byte is its own code. -/
theorem mem_undefinedCodes_of_decode {op code : Byte} {tail rest : List Byte}
    (h : decode (op :: tail) = .ok (.undefined code, rest)) : op ∈ undefinedCodes := by
  obtain ⟨hwf, hbytes⟩ := encodeOfDecodeIsTheBytes _ _ _ h
  have hcode : code ∈ undefinedCodes := wf_undefined_iff.mp hwf
  rw [encode_undefined hcode] at hbytes
  obtain ⟨rfl, -⟩ := List.cons.inj hbytes
  exact hcode

/-- Settles O3: by the cell of the code, and by the encoder for the undefined codes. -/
theorem everyOperationCodeDecodes : Obligations.EveryOperationCodeDecodes := by
  intro op b rest
  obtain ⟨i, hdecode, hlength⟩ := exists_decode op b rest
  have hundefined (hop : op ∈ undefinedCodes) : i = .undefined op ∧ lengthOf op = 1 := by
    have hentry := entryOf_undefinedCode hop
    rw [decode_of_entryOf_one hentry] at hdecode
    obtain ⟨hi, -⟩ := Prod.mk.inj (Except.ok.inj hdecode)
    exact ⟨hi.symm, lengthOf_eq_one hentry⟩
  simp only [← mem_undefinedCodes_iff]
  refine ⟨i, hdecode, hlength, ⟨?_, fun hop => ⟨op, (hundefined hop).1⟩⟩, hundefined⟩
  rintro ⟨code, rfl⟩
  exact mem_undefinedCodes_of_decode hdecode

/-- Settles O4: the map evaluated at fourteen words. -/
theorem wordsOfTheMapDecode : Obligations.WordsOfTheMapDecode := rfl

end Sys2Proof.Proofs.Encoding
end

section
/-!
The entry of an exception as writes in order (20_memory.md R38, 60_exceptions.md R254, R255), and the undefined codes, which
take Trap (R61, R251).
-/

namespace Sys2Proof.Proofs.ExceptionEntry

open Sys2Proof.Machine Sys2Proof.Claims Sys2Proof.Proofs.Encoding

/-! ### Writes in order -/

theorem didWrites_append {ws ws' : List (Addr × Byte)} {s t u : State} (h : didWrites ws s t) (h' : didWrites ws' t u) :
    didWrites (ws ++ ws') s u := by
  obtain ⟨hcells, hevents, hboundary, hFB, hFC⟩ := h
  obtain ⟨hcells', hevents', hboundary', hFB', hFC'⟩ := h'
  refine ⟨fun adr => ?_, ?_, hboundary'.trans hboundary, hFB'.trans hFB, hFC'.trans hFC⟩
  · rw [hcells', hcells]
    split
    · exact List.foldl_append.symm
    · rfl
  · rw [hevents', hevents, List.append_assoc, outputsOf, outputsOf, outputsOf, List.filterMap_append]

theorem didWrites_memWrite (adr : Addr) (v : Byte) (s : State) : didWrites [(adr, v)] s (memWrite adr v s) := by
  refine ⟨fun b => ?_, ?_, memWrite_boundary adr v s, memWrite_inFB adr v s, memWrite_inFC adr v s⟩
  · rw [peek_memWrite]
    by_cases hb : b = adr
    · simp [lastWritten, hb]
    · simp [lastWritten, hb, Ne.symm hb]
  · rw [events_memWrite]
    cases hp : portOf adr <;> simp [outputsOf, hp]

/-- A push is one write, just below SP (10_state.md R13). -/
theorem didWrites_push (v : Byte) (s : State) : didWrites [(s.sp - 1, v)] s (push v s) :=
  didWrites_memWrite (s.sp - 1) v (s.setSP (s.sp - 1))

/-- Reading CC as a byte is no write (R19). -/
theorem didWrites_readCC (s : State) : didWrites [] s (readCC s).2 := by
  refine ⟨fun adr => ?_, (List.append_nil _).symm, rfl, rfl, rfl⟩
  simp [lastWritten, State.peek]

/-- The five pushes of the entry are the writes of the frame (R254). -/
theorem didWrites_pushFrame (ret c : Byte) (s : State) : didWrites (frame ret c s) s (pushFrame ret c s) := by
  have h1 := didWrites_push ret s
  have h2 := didWrites_append h1 (didWrites_push s.y _)
  have h3 := didWrites_append h2 (didWrites_push s.x _)
  have h4 := didWrites_append h3 (didWrites_push s.a _)
  have h5 := didWrites_append h4 (didWrites_push c _)
  simpa [frame, pushFrame, BitVec.sub_sub] using h5

/-! ### The entry -/

theorem enterException_draws {e : Event} (he : e ≠ .reset) (ret : Byte) (s : State) :
    (enterException e ret s).draws = s.draws + 1 := by
  rw [enterException_eq he]
  simp [pushFrame]

/-- I and PC are no memory, so setting them after the writes adds none. -/
theorem didWrites_setI_setPC {ws : List (Addr × Byte)} {s t : State} (h : didWrites ws s t) (i : Bool) (pc : Byte) :
    didWrites ws s ((t.setI i).setPC pc) := h

/-- CC is read before the pushes; loading PC from a vector cell, which is no port, changes nothing else. -/
theorem didWrites_enterException {e : Event} (he : e ≠ .reset) (ret : Byte) (s : State) :
    didWrites (frame ret (readCC s).1 s) s (enterException e ret s) := by
  have hframe := didWrites_append (didWrites_readCC s) (didWrites_pushFrame ret (readCC s).1 (readCC s).2)
  rw [enterException_eq he]
  exact didWrites_setI_setPC hframe _ _

/-- After the entry PC is the content of the vector cell (R259). -/
theorem enterException_pc {e : Event} (he : e ≠ .reset) (ret : Byte) (s : State) :
    (enterException e ret s).pc = (enterException e ret s).peek (vectorOf e) := by
  rw [enterException_eq he, State.setPC_pc]
  simp [State.peek]

theorem regs_enterException {e : Event} (he : e ≠ .reset) (ret : Byte) (s : State) :
    regs (enterException e ret s) =
      (s.a, s.x, s.y, s.sp - 5, (enterException e ret s).peek (vectorOf e)) := by
  obtain ⟨ha, hx, hy, hsp, -⟩ := enterException_regs e ret s
  rw [regs, ha, hx, hy, hsp, enterException_pc he]

theorem flags_enterException (e : Event) (ret : Byte) (s : State) :
    flags (enterException e ret s) = (s.flagI || entrySetsI e, s.flagN, s.flagZ, s.flagV, s.flagC) := by
  obtain ⟨-, -, -, -, hI, hN, hZ, hV, hC⟩ := enterException_regs e ret s
  rw [flags, hI, hN, hZ, hV, hC]

theorem isCC_readCC (s : State) : isCC (readCC s).1 s := ccByte_bits s _

/-! ### The obligation -/

/-- An undefined code is the Trap entry, with PC already past the code (R61, R251). -/
theorem exec_undefined (code : Byte) (s : State) : exec (.undefined code) s = .next (enterException .trap s.pc s) := rfl

/-- Settles O12: the Trap entry, and the six cells of the map. -/
theorem undefinedCodeTakesTrap : Obligations.UndefinedCodeTakesTrap := by
  intro code s
  have htrap : Event.trap ≠ .reset := Event.noConfusion
  exact ⟨(readCC s).1, enterException .trap s.pc s, isCC_readCC s, exec_undefined code s,
    regs_enterException htrap s.pc s, flags_enterException .trap s.pc s, didWrites_enterException htrap s.pc s,
    enterException_draws htrap s.pc s,
    fun hcode => decode_of_entryOf_one (entryOf_undefinedCode (mem_undefinedCodes_iff.mpr hcode))⟩

end Sys2Proof.Proofs.ExceptionEntry
end

section
/-!
Addresses an operand byte makes: the addressing modes (30_encoding.md R54, R56 to R59) and the target of a branch as the
assembler writes it (R68).
-/

namespace Sys2Proof.Proofs.OperandAddresses

open Sys2Proof.Machine Sys2Proof.Claims Sys2Proof.Proofs.FetchAndReset

/-- Settles O7: every indexed mode is one sum modulo 256; an automatic mode takes the register before or after its update. -/
theorem effectiveAddressesFollowTheModes : Obligations.EffectiveAddressesFollowTheModes := by
  intro s n
  exact ⟨rfl, BitVec.toNat_add s.sp n, BitVec.toNat_add s.x n, BitVec.toNat_add s.y n, BitVec.toNat_add s.x s.a,
    BitVec.toNat_add s.y s.a, fun _ => ⟨rfl, rfl, rfl, rfl⟩⟩

/-- The assembler's offset (R68) is the inverse of the branch's sum (R55). -/
theorem add_branchOffset (adr target : Addr) : adr + 2 + branchOffset adr target = target := by
  rw [branchOffset, BitVec.add_comm, BitVec.sub_add_cancel]

/-- Settles O40: PC is past the two bytes of the branch when the offset is added. -/
theorem assembledBranchReachesItsTarget : Obligations.AssembledBranchReachesItsTarget := by
  rintro s adr target hfetches hheld rfl
  have hdecode : decode [0x21, branchOffset s.pc target] = .ok (.bra (branchOffset s.pc target), []) := rfl
  exact ⟨_, step_of_decode_held hfetches hheld hdecode, add_branchOffset s.pc target⟩

end Sys2Proof.Proofs.OperandAddresses
end

section
/-!
The encoding tables of the instruction rules (files 40 to 48) against the encoder: a well-formed instruction is encoded by
its own bytes, and the tables of several modes are the encoder's columns.
-/

namespace Sys2Proof.Proofs.EncodingTables

open Sys2Proof.Machine Sys2Proof.Claims Sys2Proof.Proofs.Encoding

/-- A table row is right if its bytes are the encoder's: those decode, whatever follows them. -/
theorem encoded_of_encode {bytes : List Byte} {i : Instr} {n : Nat} (hwf : i.wf = true) (hbytes : encode i = bytes)
    (hcycles : Instr.cycles i = some n) : Encoded bytes i n := by
  subst hbytes
  exact ⟨decode_append (decode_encode hwf), hcycles⟩

/-! ### Tables of several modes -/

theorem encodeColumns3to8_eq (row : Byte) (m : Ea) : encodeColumns3to8 row m = sixModeBytes row m := by
  cases m <;> rfl

theorem encodeColumns9toD_eq (row : Byte) (o : Src) : encodeColumns9toD row o = fiveModeBytes row o := by
  rcases o with data | m | ⟨r, k⟩
  · rfl
  · cases m <;> rfl
  · rfl

theorem encodeColumnsEF_eq (base : Byte) (l : Loc) : encodeColumnsEF base l = locBytes base l := by
  rcases l with m | ⟨r, k⟩
  · cases m <;> rfl
  · cases r <;> cases k <;> rfl

theorem srcCycles_eq (im mem : Nat) (o : Src) : srcCycles im mem o = imOrMemory im mem o := by
  cases o <;> rfl

theorem locCycles_eq (l : Loc) : locCycles l = threeOrAuto l := by
  cases l <;> rfl

/-! ### Rows of one shape -/

/-- An instruction of the six modes ab, ns, nx, ax, ny, ay. -/
theorem encoded_sixModes {i : Instr} {row : Byte} {m : Ea} {n : Nat} (hwf : i.wf = true)
    (hbytes : encode i = encodeColumns3to8 row m) (hcycles : Instr.cycles i = some n) :
    Encoded (sixModeBytes row m) i n :=
  encoded_of_encode hwf (hbytes.trans (encodeColumns3to8_eq row m)) hcycles

/-- An instruction of the five modes im, ab, ns, nx, ny. -/
theorem encoded_fiveModes {i : Instr} {row : Byte} {o : Src} {im mem : Nat} (hwf : i.wf = true)
    (hbytes : encode i = encodeColumns9toD row o) (hcycles : Instr.cycles i = some (srcCycles im mem o)) :
    Encoded (fiveModeBytes row o) i (imOrMemory im mem o) :=
  encoded_of_encode hwf (hbytes.trans (encodeColumns9toD_eq row o)) (by rw [hcycles, srcCycles_eq])

/-- The table of R107: the encoder's column E_. -/
theorem encoded_sta (l : Loc) : Encoded (locBytes 0xE0 l) (.sta l) (threeOrAuto l) :=
  encoded_of_encode rfl (encodeColumnsEF_eq 0xE0 l) (congrArg some (locCycles_eq l))

/-- The table of R100: the immediate row, and the encoder's column F_. -/
theorem encoded_lda (o : Src) : Encoded (ldaBytes o) (.lda o) (ldaCycles o) := by
  cases o with
  | im => exact encoded_of_encode rfl rfl rfl
  | loc l => exact encoded_of_encode rfl (encodeColumnsEF_eq 0xF0 l) (congrArg some (locCycles_eq l))

end Sys2Proof.Proofs.EncodingTables
end

section
/-!
What one access does, in the words of the statements (20_memory.md R32, R33): a read, a write and a source operand, with the
automatic update of 30_encoding.md R59.
-/

namespace Sys2Proof.Proofs.OperandAccesses

open Sys2Proof.Machine Sys2Proof.Claims Sys2Proof.Proofs.RegisterFrames Sys2Proof.Proofs.CellsAndPorts

/-! ### Reads and writes -/

theorem inputsSame_refl (s : State) : inputsSame s s := ⟨rfl, rfl, rfl, rfl⟩

theorem didRead_afterRead (adr : Addr) (s : State) : didRead adr s (afterRead adr s) := by
  cases hp : portOf adr with
  | none =>
    rw [afterRead_of_cell hp, didRead, hp]
    exact ⟨fun _ => rfl, inputsSame_refl s, rfl⟩
  | some p => exact didRead_of_port hp s

theorem didWrite_memWrite (adr : Addr) (v : Byte) (s : State) : didWrite adr v s (memWrite adr v s) := by
  refine ⟨fun b hb => peek_memWrite_of_ne hb v s,
    ⟨memWrite_boundary adr v s, memWrite_inFB adr v s, memWrite_inFC adr v s, memWrite_draws adr v s⟩, ?_⟩
  cases hp : portOf adr with
  | none => exact ⟨peek_memWrite_self hp v s, by simp [events_memWrite, hp]⟩
  | some p => exact ⟨by simp [peek_memWrite, hp], by simp [events_memWrite, hp]⟩

/-! ### Automatic updates -/

/-- The update of X or Y is no access: what a read does is the same measured from before it. -/
theorem didRead_of_afterUpdate {l : Loc} {adr : Addr} {s t : State} (h : didRead adr (afterUpdate l s) t) :
    didRead adr s t := by
  rcases l with m | ⟨_ | _, k⟩ <;> exact h

theorem didWrite_of_afterUpdate {l : Loc} {adr : Addr} {v : Byte} {s t : State}
    (h : didWrite adr v (afterUpdate l s) t) : didWrite adr v s t := by
  rcases l with m | ⟨_ | _, k⟩ <;> exact h

theorem index_afterUpdate (l : Loc) (r : Index) (s : State) : (afterUpdate l s).index r = indexAfter l r s := by
  cases l with
  | ea => rfl
  | auto q k =>
    by_cases hqr : q = r
    · subst hqr
      cases k <;> simp [afterUpdate, indexAfter, Auto.updated]
    · simp [afterUpdate, indexAfter, hqr, Ne.symm hqr]

theorem regs_afterUpdate (l : Loc) (s : State) :
    regs (afterUpdate l s) = (s.a, indexAfter l .x s, indexAfter l .y s, s.sp, s.pc) := by
  rw [← index_afterUpdate, ← index_afterUpdate]
  simp [regs, State.index]

/-! ### Source operands -/

theorem index_afterSrc (o : Src) (r : Index) (s : State) : (afterSrc o s).index r = indexAfterSrc o r s := by
  cases o with
  | im => rfl
  | loc l => exact (index_afterRead _ _ r).trans (index_afterUpdate l r s)

theorem didReadSrc_afterSrc (o : Src) (s : State) : didReadSrc o s (afterSrc o s) := by
  cases o with
  | im => exact ⟨fun _ => rfl, inputsSame_refl s, rfl⟩
  | loc l => exact didRead_of_afterUpdate (didRead_afterRead (locAddress l s) (afterUpdate l s))

/-! ### Flags and registers -/

/-- N and Z of a byte, as the statements and as the model say them (00_scope.md R8). -/
theorem nz_eq (b : Byte) : nz b = (negative b, isZero b) := by
  rw [nz, negative_eq, isZero_eq]

theorem regs_memWrite (adr : Addr) (v : Byte) (s : State) : regs (memWrite adr v s) = regs s := by
  simp [regs]

theorem flags_memWrite (adr : Addr) (v : Byte) (s : State) : flags (memWrite adr v s) = flags s := by
  simp [flags]

theorem flags_afterUpdate (l : Loc) (s : State) : flags (afterUpdate l s) = flags s := by
  simp [flags]

end Sys2Proof.Proofs.OperandAccesses
end

section
/-!
Load and store (40_load_store.md R100 to R110). A load is a source operand read, a register write and the load's flags; a
store is an automatic update and one write; LEA writes the effective address to a register.
-/

namespace Sys2Proof.Proofs.LoadStore

open Sys2Proof.Machine Sys2Proof.Claims Sys2Proof.Proofs.EncodingTables Sys2Proof.Proofs.OperandAccesses

/-! ### The two shapes -/

/-- A load: `t` is the state after the operand's read and the register write, before the flags. -/
theorem loads_of_exec {i : Instr} {o : Src} {s t : State} {r : Byte × Byte × Byte × Byte × Byte}
    (hexec : exec i s = .next (t.setLoadFlags (srcValue o s))) (hregs : regs t = r) (hI : t.flagI = s.flagI)
    (hC : t.flagC = s.flagC) (hread : didReadSrc o s t) : loads i o r s := by
  refine ⟨_, hexec, hregs, ?_, hread⟩
  simp [flags, nz_eq, hI, hC]

/-- A store: the automatic update, which the modes of `Ea` do not have, and the write. -/
theorem stores_of_exec {i : Instr} {l : Loc} {v : Byte} {s : State}
    (hexec : exec i s = .next (memWrite (locAddress l s) v (afterUpdate l s))) :
    stores i (locAddress l s) v (s.a, indexAfter l .x s, indexAfter l .y s, s.sp, s.pc) s :=
  ⟨_, hexec, (regs_memWrite _ v _).trans (regs_afterUpdate l s), (flags_memWrite _ v _).trans (flags_afterUpdate l s),
    didWrite_of_afterUpdate (didWrite_memWrite _ v _)⟩

/-! ### Loads -/

theorem regs_setA_afterSrc (o : Src) (v : Byte) (s : State) :
    regs ((afterSrc o s).setA v) = (v, indexAfterSrc o .x s, indexAfterSrc o .y s, s.sp, s.pc) := by
  rw [← index_afterSrc, ← index_afterSrc]
  simp [regs, State.index]

/-- Settles O22: the registers after the operand's read, with A replaced. -/
theorem ldaLoadsA : Obligations.LdaLoadsA := fun o s =>
  ⟨encoded_lda o, loads_of_exec (t := (afterSrc o s).setA (srcValue o s)) rfl (regs_setA_afterSrc o _ s)
    (afterSrc_flagI s o) (afterSrc_flagC s o) (didReadSrc_afterSrc o s)⟩

/-- Settles O23: without automatic modes the read changes no register, so only the loaded one changes. -/
theorem ldxLdyLdspLoad : Obligations.LdxLdyLdspLoad := by
  intro o s ho
  obtain ⟨hx, hy⟩ := afterSrc_xy s ho
  have hI := afterSrc_flagI s o
  have hC := afterSrc_flagC s o
  have hread := didReadSrc_afterSrc o s
  refine ⟨encoded_fiveModes ho rfl rfl, encoded_fiveModes ho rfl rfl, encoded_fiveModes ho rfl rfl, ?ldx, ?ldy, ?ldsp⟩
  case ldx => exact loads_of_exec (t := (afterSrc o s).setX (srcValue o s)) rfl (by simp [regs, hy]) hI hC hread
  case ldy => exact loads_of_exec (t := (afterSrc o s).setY (srcValue o s)) rfl (by simp [regs, hx]) hI hC hread
  case ldsp => exact loads_of_exec (t := (afterSrc o s).setSP (srcValue o s)) rfl (by simp [regs, hx, hy]) hI hC hread

/-! ### Stores -/

/-- Settles O25: the store with its automatic update, the address formed from the old registers. -/
theorem staStoresA : Obligations.StaStoresA :=
  fun l _ => ⟨encoded_sta l, stores_of_exec rfl⟩

/-- Settles O26: the store at EA is the store without automatic update. -/
theorem stxStyStspStore : Obligations.StxStyStspStore := fun m _ =>
  ⟨encoded_sixModes rfl rfl rfl, encoded_sixModes rfl rfl rfl, encoded_sixModes rfl rfl rfl,
    stores_of_exec (l := .ea m) rfl, stores_of_exec (l := .ea m) rfl, stores_of_exec (l := .ea m) rfl⟩

/-! ### LEA -/

theorem exec_leax (m : Ea) (s : State) : exec (.leax m) s = .next (s.setX (eaOf m s)) := rfl

theorem exec_leay (m : Ea) (s : State) : exec (.leay m) s = .next (s.setY (eaOf m s)) := rfl

theorem exec_leasp (m : Ea) (s : State) : exec (.leasp m) s = .next (s.setSP (eaOf m s)) := rfl

/-- Settles O24: each of the seven forms is one row of the encoder and one sum. -/
theorem leaTakesTheAddress : Obligations.LeaTakesTheAddress := fun n s =>
  ⟨encoded_of_encode rfl rfl rfl, exec_leax (.nx n) s, encoded_of_encode rfl rfl rfl, exec_leax (.ns n) s,
    encoded_of_encode rfl rfl rfl, exec_leay (.ny n) s, encoded_of_encode rfl rfl rfl, exec_leay (.ns n) s,
    encoded_of_encode rfl rfl rfl, exec_leasp (.ns n) s, encoded_of_encode rfl rfl rfl, exec_leasp (.nx n) s,
    encoded_of_encode rfl rfl rfl, exec_leasp (.ny n) s⟩

end Sys2Proof.Proofs.LoadStore
end

section
/-!
Data movement (41_data_movement.md R120 to R131). A transfer is one register write, an exchange two writes of old contents;
CC is read and written as a byte (10_state.md R19), and neither accesses memory or a port.
-/

namespace Sys2Proof.Proofs.DataMovement

open Sys2Proof.Machine Sys2Proof.Claims Sys2Proof.Proofs.EncodingTables Sys2Proof.Proofs.ExceptionEntry
  Sys2Proof.Proofs.OperandAccesses

section

variable (s : State)

/-! ### Writing A and CC -/

theorem regs_writeCC (v : Byte) : regs (writeCC v s) = regs s := rfl

theorem flags_writeCC (v : Byte) : flags (writeCC v s) = flagsOf v := rfl

theorem regs_setA (v : Byte) : regs (s.setA v) = (v, s.x, s.y, s.sp, s.pc) := rfl

theorem flags_setA (v : Byte) : flags (s.setA v) = flags s := rfl

theorem noAccess_writeCC (v : Byte) : noAccess s (writeCC v s) := ⟨fun _ => rfl, inputsSame_refl s, rfl⟩

/-- A write of A is no access: what was done before it is all that was done. -/
theorem noAccess_setA {s t : State} (h : noAccess s t) (v : Byte) : noAccess s (t.setA v) := h

/-- A read of CC draws one free value, the three open bits (D1, log 1), and changes nothing else. -/
theorem readCC_snd_eq : (readCC s).2 = { s with draws := s.draws + 1 } := rfl

/-! ### The transfers and exchanges as register writes -/

theorem exec_tfrAToCC : exec .tfrAToCC s = .next (writeCC s.a s) := rfl

theorem exec_tfrCCToA : exec .tfrCCToA s = .next ((readCC s).2.setA (readCC s).1) := rfl

theorem exec_exgACC : exec .exgACC s = .next ((writeCC s.a (readCC s).2).setA (readCC s).1) := rfl

theorem exec_tfrXToY : exec .tfrXToY s = .next (s.setY s.x) := rfl

theorem exec_tfrYToX : exec .tfrYToX s = .next (s.setX s.y) := rfl

theorem exec_tfrXToSP : exec .tfrXToSP s = .next (s.setSP s.x) := rfl

theorem exec_tfrSPToX : exec .tfrSPToX s = .next (s.setX s.sp) := rfl

theorem exec_tfrYToSP : exec .tfrYToSP s = .next (s.setSP s.y) := rfl

theorem exec_tfrSPToY : exec .tfrSPToY s = .next (s.setY s.sp) := rfl

theorem exec_exgXY : exec .exgXY s = .next ((s.setX s.y).setY s.x) := rfl

theorem exec_exgXSP : exec .exgXSP s = .next ((s.setX s.sp).setSP s.x) := rfl

theorem exec_exgYSP : exec .exgYSP s = .next ((s.setY s.sp).setSP s.y) := rfl

end

/-! ### A and CC -/

/-- Settles O27: both write CC from A; EXG has read CC before that, which draws its open bits, and writes A last. -/
theorem aToCCWritesFiveFlags : Obligations.AToCCWritesFiveFlags := by
  intro s
  refine ⟨encoded_of_encode rfl rfl rfl, encoded_of_encode rfl rfl rfl, ?tfr, ?exg⟩
  case tfr => exact ⟨writeCC s.a s, exec_tfrAToCC s, regs_writeCC s s.a, flags_writeCC s s.a, noAccess_writeCC s s.a⟩
  case exg =>
    have hflags : flags ((writeCC s.a (readCC s).2).setA (readCC s).1) = flagsOf s.a :=
      (flags_setA _ _).trans (flags_writeCC _ s.a)
    have hdraw : noAccess { s with draws := s.draws + 1 } (writeCC s.a (readCC s).2) := by
      rw [readCC_snd_eq]
      exact noAccess_writeCC _ s.a
    exact ⟨(readCC s).1, _, isCC_readCC s, exec_exgACC s, regs_setA _ _, hflags, noAccess_setA hdraw _⟩

/-- Settles O28: the byte read from CC goes to A. -/
theorem ccToAKeepsTheFlags : Obligations.CCToAKeepsTheFlags := fun s =>
  ⟨encoded_of_encode rfl rfl rfl, (readCC s).1, isCC_readCC s, exec_tfrCCToA s⟩

/-! ### X, Y and SP -/

/-- Settles O29: each of the six is one row of the encoder and one register write. -/
theorem tfrCopiesARegister : Obligations.TfrCopiesARegister := fun s =>
  ⟨encoded_of_encode rfl rfl rfl, exec_tfrXToY s, encoded_of_encode rfl rfl rfl, exec_tfrYToX s,
    encoded_of_encode rfl rfl rfl, exec_tfrXToSP s, encoded_of_encode rfl rfl rfl, exec_tfrSPToX s,
    encoded_of_encode rfl rfl rfl, exec_tfrYToSP s, encoded_of_encode rfl rfl rfl, exec_tfrSPToY s⟩

/-- Settles O30: the second write takes the content the first register had before it. -/
theorem exgSwapsTwoRegisters : Obligations.ExgSwapsTwoRegisters := fun s =>
  ⟨encoded_of_encode rfl rfl rfl, exec_exgXY s, encoded_of_encode rfl rfl rfl, exec_exgXSP s,
    encoded_of_encode rfl rfl rfl, exec_exgYSP s⟩

end Sys2Proof.Proofs.DataMovement
end

section
/-!
Jumps, BSR and RTS (42_flow_control.md R140 to R143, R158). JSR and BSR are one shape, a push of the return address and a
write of PC; RTS is a pull.
-/

namespace Sys2Proof.Proofs.Jumps

open Sys2Proof.Machine Sys2Proof.Claims Sys2Proof.Proofs.EncodingTables Sys2Proof.Proofs.OperandAccesses

/-! ### The stack and PC -/

/-- A push is one write, just below SP (10_state.md R13). -/
theorem didWrite_push (v : Byte) (s : State) : didWrite (s.sp - 1) v s (push v s) :=
  didWrite_memWrite (s.sp - 1) v (s.setSP (s.sp - 1))

/-- A pull is one read, at SP (R13). -/
theorem didRead_pull (s : State) : didRead s.sp s (pull s).2 := didRead_afterRead s.sp s

/-- A write of PC is no access. -/
theorem didWrite_setPC {adr : Addr} {v : Byte} {s t : State} (h : didWrite adr v s t) (pc : Byte) :
    didWrite adr v s (t.setPC pc) := h

theorem didRead_setPC {adr : Addr} {s t : State} (h : didRead adr s t) (pc : Byte) : didRead adr s (t.setPC pc) := h

/-- A call: the return address goes below SP, and PC to the target. -/
theorem stores_of_call {i : Instr} {s : State} {target : Addr}
    (hexec : exec i s = .next ((push s.pc s).setPC target)) :
    stores i (s.sp - 1) s.pc (s.a, s.x, s.y, s.sp - 1, target) s :=
  ⟨_, hexec, by simp [regs], by simp [flags], didWrite_setPC (didWrite_push s.pc s) target⟩

/-! ### Encodings -/

theorem encodeIf_true {p : Bool} (h : p = true) (bytes : List Byte) : encodeIf p bytes = bytes := if_pos h

theorem jumpCycles_eq (ab indexed : Nat) (m : Ea) : jumpCycles ab indexed m = abOrIndexed ab indexed m := by
  cases m <;> rfl

/-- A jump, in the modes it has. -/
theorem encoded_jump {i : Instr} {row : Byte} {m : Ea} {ab indexed : Nat} (hwf : i.wf = true) (hm : m.isJumpMode = true)
    (hbytes : encode i = encodeIf m.isJumpMode (encodeColumns3to8 row m))
    (hcycles : Instr.cycles i = some (jumpCycles ab indexed m)) :
    Encoded (sixModeBytes row m) i (abOrIndexed ab indexed m) :=
  encoded_sixModes hwf (hbytes.trans (encodeIf_true hm _)) (by rw [hcycles, jumpCycles_eq])

/-! ### The obligations -/

theorem exec_jmp (m : Ea) (s : State) : exec (.jmp m) s = .next (s.setPC (eaOf m s)) := rfl

theorem exec_jsr (m : Ea) (s : State) : exec (.jsr m) s = .next ((push s.pc s).setPC (eaOf m s)) := rfl

theorem exec_bra (offset : Byte) (s : State) : exec (.bra offset) s = .next (s.setPC (s.pc + offset)) := rfl

theorem exec_bsr (offset : Byte) (s : State) :
    exec (.bsr offset) s = .next ((push s.pc s).setPC (s.pc + offset)) := rfl

theorem exec_rts (s : State) : exec .rts s = .next ((pull s).2.setPC (pull s).1) := rfl

/-- Settles O32: JSR is a call of the effective address, formed from the registers before the push. -/
theorem jsrPushesTheReturnAddress : Obligations.JsrPushesTheReturnAddress :=
  fun m s hm => ⟨encoded_jump hm hm rfl rfl, stores_of_call (exec_jsr m s)⟩

/-- Settles O31: JMP is one write of PC. -/
theorem jmpGoesToTheAddress : Obligations.JmpGoesToTheAddress :=
  fun m s hm => ⟨encoded_jump hm hm rfl rfl, exec_jmp m s⟩

/-- Settles O33: BRA is one write of PC, BSR a call of the same target. -/
theorem braAndBsrGoToTheTarget : Obligations.BraAndBsrGoToTheTarget := fun offset s =>
  ⟨encoded_of_encode rfl rfl rfl, exec_bra offset s, encoded_of_encode rfl rfl rfl, stores_of_call (exec_bsr offset s)⟩

/-- Settles O36: RTS is a pull into PC. -/
theorem rtsPullsPC : Obligations.RtsPullsPC := fun s =>
  ⟨encoded_of_encode rfl rfl rfl, _, exec_rts s, by simp [regs], by simp [flags], didRead_setPC (didRead_pull s) _⟩

end Sys2Proof.Proofs.Jumps
end

section
/-!
The conditional branches (42_flow_control.md R144 to R157, R160): each is one condition on the flags. What a pair of them
decides, and what they decide after a compare (R161), are facts about the conditions.
-/

namespace Sys2Proof.Proofs.Branches

open Sys2Proof.Machine Sys2Proof.Claims Sys2Proof.Proofs.EncodingTables Sys2Proof.Proofs.Execution

/-! ### The condition of each branch -/

/-- The branch is taken exactly on this condition (R160). -/
def BranchesIf (branch : Byte → Instr) (taken : State → Bool) : Prop :=
  ∀ (offset : Byte) (s : State), exec (branch offset) s = .next (branchIf (taken s) offset s)

theorem bmi_branchesIf : BranchesIf .bmi (fun s => s.flagN) := fun _ _ => rfl

theorem bpl_branchesIf : BranchesIf .bpl (fun s => !s.flagN) := fun _ _ => rfl

theorem beq_branchesIf : BranchesIf .beq (fun s => s.flagZ) := fun _ _ => rfl

theorem bne_branchesIf : BranchesIf .bne (fun s => !s.flagZ) := fun _ _ => rfl

theorem bvs_branchesIf : BranchesIf .bvs (fun s => s.flagV) := fun _ _ => rfl

theorem bvc_branchesIf : BranchesIf .bvc (fun s => !s.flagV) := fun _ _ => rfl

theorem bcs_branchesIf : BranchesIf .bcs (fun s => s.flagC) := fun _ _ => rfl

theorem bcc_branchesIf : BranchesIf .bcc (fun s => !s.flagC) := fun _ _ => rfl

theorem bhi_branchesIf : BranchesIf .bhi (fun s => !(s.flagC || s.flagZ)) := fun _ _ => rfl

theorem bls_branchesIf : BranchesIf .bls (fun s => s.flagC || s.flagZ) := fun _ _ => rfl

theorem bgt_branchesIf : BranchesIf .bgt (fun s => !((s.flagN ^^ s.flagV) || s.flagZ)) := fun _ _ => rfl

theorem bge_branchesIf : BranchesIf .bge (fun s => !(s.flagN ^^ s.flagV)) := fun _ _ => rfl

theorem ble_branchesIf : BranchesIf .ble (fun s => (s.flagN ^^ s.flagV) || s.flagZ) := fun _ _ => rfl

theorem blt_branchesIf : BranchesIf .blt (fun s => s.flagN ^^ s.flagV) := fun _ _ => rfl

section

variable {branch p q : Byte → Instr} {taken taken' : State → Bool}

theorem BranchesIf.congr (h : BranchesIf branch taken) (heq : ∀ s, taken s = taken' s) : BranchesIf branch taken' :=
  fun offset s => by rw [h offset s, heq s]

/-- A branch in a state whose flags decide its condition. -/
theorem BranchesIf.exec_eq (h : BranchesIf branch taken) {s : State} {holds : Bool} (hholds : taken s = holds)
    (offset : Byte) : exec (branch offset) s = .next (if holds then { s with pc := s.pc + offset } else s) := by
  rw [h offset s, hholds]
  rfl

/-- With its table row, a branch is as the statements say. -/
theorem BranchesIf.branchesWhen {op : Byte} (h : BranchesIf branch taken)
    (hrow : ∀ offset, (branch offset).wf = true ∧ encode (branch offset) = [op, offset] ∧
      Instr.cycles (branch offset) = some 4) : branchesWhen branch op taken := by
  intro offset s
  obtain ⟨hwf, hbytes, hcycles⟩ := hrow offset
  exact ⟨encoded_of_encode hwf hbytes hcycles, h.exec_eq rfl offset⟩

/-- Two branches with opposite conditions are complementary (R161). -/
theorem BranchesIf.complementary (hp : BranchesIf p taken) (hq : BranchesIf q taken')
    (hopposite : ∀ s, taken' s = !taken s) : complementary p q := by
  intro offset s
  refine ⟨_, _, hp offset s, hq offset s, ?_⟩
  rw [hopposite s]
  cases taken s with
  | true => exact .inl ⟨rfl, rfl⟩
  | false => exact .inr ⟨rfl, rfl⟩

end

/-! ### The flags of a difference -/

/-- Without a borrow in, the low byte of the difference is the difference of the bytes. -/
theorem sub8_r (a b : Byte) : (sub8 a b false).r = a - b := by
  show BitVec.ofInt 8 ((a.toNat : Int) - b.toNat - 0) = a - b
  apply BitVec.eq_of_toNat_eq
  have ha := a.isLt
  have hb := b.isLt
  rw [toNat_ofInt8, BitVec.toNat_sub]
  omega

/-- Z: the bytes are equal. -/
theorem sub8_z (a b : Byte) : (sub8 a b false).z = decide (a = b) := by
  have hz : (sub8 a b false).z = decide ((sub8 a b false).r = 0) := beq_eq_decide _ _
  rw [hz, sub8_r, decide_eq_decide]
  exact sub_eq_zero

/-- C: the borrow is the unsigned order. -/
theorem sub8_c_eq_lt (a b : Byte) : (sub8 a b false).c = decide (a.toNat < b.toNat) := sub8_c a b false

/-- Bytes of one sign: their difference does not overflow, and its sign is the signed order. -/
theorem msb_sub_of_msb_eq {a b : Byte} (h : a.msb = b.msb) : (a - b).msb = decide (a.toInt < b.toInt) := by
  have ha := a.isLt
  have hb := b.isLt
  rw [msb_eq, msb_eq, decide_eq_decide] at h
  rw [msb_eq, toInt_eq, toInt_eq, BitVec.toNat_sub, decide_eq_decide]
  omega

/-- Bytes of different signs: the negative one is the lesser. -/
theorem msb_of_msb_ne {a b : Byte} (h : a.msb ≠ b.msb) : a.msb = decide (a.toInt < b.toInt) := by
  have ha := a.isLt
  have hb := b.isLt
  rw [msb_eq, msb_eq, ne_eq, decide_eq_decide] at h
  rw [msb_eq, toInt_eq, toInt_eq, decide_eq_decide]
  omega

/-- N exclusive-or V: the sign of the difference, inverted on overflow, is the signed order. -/
theorem sub8_n_xor_v (a b : Byte) : ((sub8 a b false).n ^^ (sub8 a b false).v) = decide (a.toInt < b.toInt) := by
  have hxor : ((sub8 a b false).n ^^ (sub8 a b false).v) =
      ((sub8 a b false).r.msb ^^ (a.msb != b.msb && (sub8 a b false).r.msb != a.msb)) := rfl
  rw [hxor, sub8_r]
  by_cases hsign : a.msb = b.msb
  · rw [← msb_sub_of_msb_eq hsign, hsign]
    simp
  · rw [← msb_of_msb_ne hsign, bne_iff_ne.mpr hsign]
    cases a.msb <;> simp

/-! ### After a compare -/

section

variable {reg opr : Byte} {t : State}

/-- The flags of `reg - opr`, as far as a branch looks at them. -/
structure Compared (reg opr : Byte) (t : State) : Prop where
  zero : t.flagZ = decide (reg = opr)
  carry : t.flagC = decide (reg.toNat < opr.toNat)
  signed : (t.flagN ^^ t.flagV) = decide (reg.toInt < opr.toInt)

theorem Compared.of_sub8 (s : State) : Compared reg opr (s.setFlags (sub8 reg opr false)) :=
  ⟨sub8_z reg opr, sub8_c_eq_lt reg opr, sub8_n_xor_v reg opr⟩

/-- The condition of BLS. -/
theorem Compared.unsigned_le (h : Compared reg opr t) :
    (t.flagC || t.flagZ) = decide (reg.toNat ≤ opr.toNat) := by
  rw [h.carry, h.zero, ← Bool.decide_or, decide_eq_decide, ← BitVec.toNat_inj]
  exact le_iff_lt_or_eq.symm

/-- The condition of BLE. -/
theorem Compared.signed_le (h : Compared reg opr t) :
    ((t.flagN ^^ t.flagV) || t.flagZ) = decide (reg.toInt ≤ opr.toInt) := by
  rw [h.signed, h.zero, ← Bool.decide_or, decide_eq_decide, ← BitVec.toInt_inj]
  exact le_iff_lt_or_eq.symm

theorem ordersBranches_of_compared {i : Instr} {s : State} (hexec : exec i s = .next t) (h : Compared reg opr t) :
    ordersBranches i reg opr s := by
  refine ⟨t, hexec, fun offset => ⟨beq_branchesIf.exec_eq h.zero offset, bne_branchesIf.exec_eq ?ne offset,
    bhi_branchesIf.exec_eq ?ugt offset, bcc_branchesIf.exec_eq ?uge offset, bls_branchesIf.exec_eq h.unsigned_le offset,
    bcs_branchesIf.exec_eq h.carry offset, bgt_branchesIf.exec_eq ?sgt offset, bge_branchesIf.exec_eq ?sge offset,
    ble_branchesIf.exec_eq h.signed_le offset, blt_branchesIf.exec_eq h.signed offset⟩⟩
  case ne => simp only [h.zero, ← decide_not, ne_eq]
  case ugt => simp only [h.unsigned_le, ← decide_not, not_le]
  case uge => simp only [h.carry, ← decide_not, not_lt]
  case sgt => simp only [h.signed_le, ← decide_not, not_le]
  case sge => simp only [h.signed, ← decide_not, not_lt]

end

/-- A compare, whichever register it looks at. -/
theorem ordersBranches_of_testAgainst {i : Instr} {reg : Byte} {o : Src} {s : State}
    (hexec : exec i s = .next (testAgainst subOp reg o s)) : ordersBranches i reg (srcValue o s) s :=
  ordersBranches_of_compared hexec (.of_sub8 (afterSrc o s))

theorem exec_cmpa (o : Src) (s : State) : exec (.cmpa o) s = .next (testAgainst subOp s.a o s) := rfl

theorem exec_cmpx (o : Src) (s : State) : exec (.cmpx o) s = .next (testAgainst subOp s.x o s) := rfl

theorem exec_cmpy (o : Src) (s : State) : exec (.cmpy o) s = .next (testAgainst subOp s.y o s) := rfl

theorem exec_cmpsp (o : Src) (s : State) : exec (.cmpsp o) s = .next (testAgainst subOp s.sp o s) := rfl

theorem exec_suba (o : Src) (s : State) : exec (.suba o) s = .next (operateA subOp o s) := rfl

/-! ### The obligations -/

/-- Settles O38: the compares and SUBA set the flags of one difference; SUBA besides writes A, which no branch looks at. -/
theorem branchesAfterACompareOrder : Obligations.BranchesAfterACompareOrder := fun o s =>
  ⟨ordersBranches_of_testAgainst (exec_cmpa o s), ordersBranches_of_testAgainst (exec_cmpx o s),
    ordersBranches_of_testAgainst (exec_cmpy o s), ordersBranches_of_testAgainst (exec_cmpsp o s),
    ordersBranches_of_compared (exec_suba o s) (.of_sub8 ((afterSrc o s).setA _))⟩

/-- Settles O39: the two conditions of a pair are opposite. -/
theorem complementaryBranches : Obligations.ComplementaryBranches :=
  ⟨bmi_branchesIf.complementary bpl_branchesIf fun _ => rfl, beq_branchesIf.complementary bne_branchesIf fun _ => rfl,
    bvs_branchesIf.complementary bvc_branchesIf fun _ => rfl, bcs_branchesIf.complementary bcc_branchesIf fun _ => rfl,
    bhi_branchesIf.complementary bls_branchesIf fun _ => (Bool.not_not _).symm,
    bgt_branchesIf.complementary ble_branchesIf fun _ => (Bool.not_not _).symm,
    bge_branchesIf.complementary blt_branchesIf fun _ => (Bool.not_not _).symm⟩

/-- Settles O34: each condition is one flag. -/
theorem branchesOnOneFlag : Obligations.BranchesOnOneFlag :=
  ⟨bmi_branchesIf.branchesWhen fun _ => ⟨rfl, rfl, rfl⟩, bpl_branchesIf.branchesWhen fun _ => ⟨rfl, rfl, rfl⟩,
    beq_branchesIf.branchesWhen fun _ => ⟨rfl, rfl, rfl⟩, bne_branchesIf.branchesWhen fun _ => ⟨rfl, rfl, rfl⟩,
    bvs_branchesIf.branchesWhen fun _ => ⟨rfl, rfl, rfl⟩, bvc_branchesIf.branchesWhen fun _ => ⟨rfl, rfl, rfl⟩,
    bcs_branchesIf.branchesWhen fun _ => ⟨rfl, rfl, rfl⟩, bcc_branchesIf.branchesWhen fun _ => ⟨rfl, rfl, rfl⟩⟩

/-- The statement's way to write that N and V differ. -/
theorem xor_eq_decide_ne (n v : Bool) : (n ^^ v) = decide (n ≠ v) := by
  cases n <;> cases v <;> rfl

/-- Settles O35: each formula of the flags is the condition the statement writes out. -/
theorem branchesOnAFormula : Obligations.BranchesOnAFormula := by
  refine ⟨(bhi_branchesIf.congr fun s => ?hi).branchesWhen fun _ => ⟨rfl, rfl, rfl⟩,
    (bls_branchesIf.congr fun s => ?ls).branchesWhen fun _ => ⟨rfl, rfl, rfl⟩,
    (bgt_branchesIf.congr fun s => ?gt).branchesWhen fun _ => ⟨rfl, rfl, rfl⟩,
    (bge_branchesIf.congr fun s => ?ge).branchesWhen fun _ => ⟨rfl, rfl, rfl⟩,
    (ble_branchesIf.congr fun s => ?le).branchesWhen fun _ => ⟨rfl, rfl, rfl⟩,
    (blt_branchesIf.congr fun s => ?lt).branchesWhen fun _ => ⟨rfl, rfl, rfl⟩⟩
  case hi => simp
  case ls => simp
  case gt => simp [xor_eq_decide_ne]
  case ge => simp [xor_eq_decide_ne]
  case le => simp [xor_eq_decide_ne]
  case lt => exact xor_eq_decide_ne s.flagN s.flagV

end Sys2Proof.Proofs.Branches
end

section
/-!
The return from an exception (42_flow_control.md R159, 60_exceptions.md R262). The registers that RTI writes between its
reads do not matter to the reads, so RTI is five reads in order and then the register writes.
-/

namespace Sys2Proof.Proofs.ExceptionReturn

open Sys2Proof.Machine Sys2Proof.Claims Sys2Proof.Proofs.EncodingTables Sys2Proof.Proofs.ExceptionEntry
  Sys2Proof.Proofs.FetchAndReset Sys2Proof.Proofs.OperandAccesses

/-! ### A read does not depend on the registers -/

section

variable (adr : Addr) (v : Byte) (s : State)

@[simp] theorem readValue_setA : readValue adr (s.setA v) = readValue adr s := readValue_congr adr rfl rfl rfl rfl

@[simp] theorem readValue_setX : readValue adr (s.setX v) = readValue adr s := readValue_congr adr rfl rfl rfl rfl

@[simp] theorem readValue_setY : readValue adr (s.setY v) = readValue adr s := readValue_congr adr rfl rfl rfl rfl

@[simp] theorem readValue_setSP : readValue adr (s.setSP v) = readValue adr s := readValue_congr adr rfl rfl rfl rfl

@[simp] theorem readValue_writeCC : readValue adr (writeCC v s) = readValue adr s :=
  readValue_congr adr rfl rfl rfl rfl

/-- An update that commutes with taking either port's input commutes with a read. -/
theorem afterRead_comm (put : State → State)
    (hFB : ∀ t, (put t).takeInput .fb = put (t.takeInput .fb))
    (hFC : ∀ t, (put t).takeInput .fc = put (t.takeInput .fc)) :
    afterRead adr (put s) = put (afterRead adr s) := by
  rcases hp : portOf adr with _ | _ | _
  · rw [afterRead_of_cell hp, afterRead_of_cell hp]
  · rw [afterRead_of_port hp, afterRead_of_port hp, hFB]
  · rw [afterRead_of_port hp, afterRead_of_port hp, hFC]

@[simp] theorem afterRead_setA : afterRead adr (s.setA v) = (afterRead adr s).setA v :=
  afterRead_comm adr s (State.setA v) (fun _ => rfl) fun _ => rfl

@[simp] theorem afterRead_setX : afterRead adr (s.setX v) = (afterRead adr s).setX v :=
  afterRead_comm adr s (State.setX v) (fun _ => rfl) fun _ => rfl

@[simp] theorem afterRead_setY : afterRead adr (s.setY v) = (afterRead adr s).setY v :=
  afterRead_comm adr s (State.setY v) (fun _ => rfl) fun _ => rfl

@[simp] theorem afterRead_setSP : afterRead adr (s.setSP v) = (afterRead adr s).setSP v :=
  afterRead_comm adr s (State.setSP v) (fun _ => rfl) fun _ => rfl

@[simp] theorem afterRead_writeCC : afterRead adr (writeCC v s) = writeCC v (afterRead adr s) :=
  afterRead_comm adr s (writeCC v) (fun _ => rfl) fun _ => rfl

end

/-! ### Five reads and then the registers -/

/-- The addresses RTI reads, `sp` being SP before it: ascending, modulo 256. -/
def pulledAddresses (sp : Addr) : List Addr := [sp, sp + 1, sp + 2, sp + 3, sp + 4]

/-- The registers and flags that five pulled bytes give (R159): the flags from `c`, SP past the bytes. -/
def restore (sp c a x y pc : Byte) (u : State) : State :=
  (((((writeCC c u).setA a).setX x).setY y).setSP (sp + 5)).setPC pc

section

variable (sp c a x y pc : Byte) (u : State)

theorem regs_restore : regs (restore sp c a x y pc u) = (a, x, y, sp + 5, pc) := rfl

theorem flags_restore : flags (restore sp c a x y pc u) = flagsOf c := rfl

end

/-- RTI as the reads in order and the register writes after them: each read gives what it would with no write before it. -/
theorem returnFromException_eq_restore {s u : State} {c a x y pc : Byte}
    (h : readMany (pulledAddresses s.sp) s = ([c, a, x, y, pc], u)) :
    returnFromException s = restore s.sp c a x y pc u := by
  obtain ⟨⟨hc, ha, hx, hy, hpc⟩, hu⟩ := by simpa [pulledAddresses, readMany] using h
  simp only [returnFromException, pull_fst, pull_snd, hc, ha, hx, hy, hpc, hu, BitVec.ofNat_eq_ofNat, BitVec.add_assoc,
    BitVec.reduceAdd, writeCC_sp, State.setSP_sp, State.setA_sp, State.setX_sp, State.setY_sp, readValue_writeCC,
    readValue_setSP, readValue_setA, readValue_setX, readValue_setY, afterRead_writeCC, afterRead_setSP, afterRead_setA,
    afterRead_setX, afterRead_setY]
  rfl

theorem readMany_mem (adrs : List Addr) (s : State) : (readMany adrs s).2.mem = s.mem := by
  induction adrs generalizing s with
  | nil => rfl
  | cons adr rest ih => exact (ih _).trans (afterRead_mem adr s)

theorem exec_rti (s : State) : exec .rti s = .next (returnFromException s) := rfl

/-- Settles O37: the reads, and the registers they restore. -/
theorem rtiPullsFiveBytes : Obligations.RtiPullsFiveBytes := by
  intro s
  obtain ⟨c, a, x, y, pc, u, hread⟩ : ∃ c a x y pc u, readMany (pulledAddresses s.sp) s = ([c, a, x, y, pc], u) :=
    ⟨_, _, _, _, _, _, rfl⟩
  have hmem : u.mem = s.mem := by rw [← readMany_mem (pulledAddresses s.sp) s, hread]
  have hexec : exec .rti s = .next (restore s.sp c a x y pc u) := by
    rw [exec_rti, returnFromException_eq_restore hread]
  exact ⟨encoded_of_encode rfl rfl rfl, _, c, a, x, y, pc, u, hread, hexec, regs_restore .., flags_restore ..,
    fun adr => congrArg (Memory.read · adr.toNat) hmem, inputsSame_refl u, rfl⟩

/-! ### The frame of an entry, read back -/

/-- Cells read in order give their contents and change nothing. -/
theorem readMany_of_cells {adrs : List Addr} (h : ∀ adr ∈ adrs, portOf adr = none) (s : State) :
    readMany adrs s = (adrs.map s.peek, s) := by
  induction adrs with
  | nil => rfl
  | cons adr rest ih =>
    have hcell := h adr List.mem_cons_self
    rw [readMany, readValue_of_cell hcell, afterRead_of_cell hcell, ih fun b hb => h b (List.mem_cons_of_mem adr hb)]
    rfl

/-- The addresses of a frame, from SP after the entry upward (60_exceptions.md R254). -/
theorem pulledAddresses_sub_five (sp : Addr) :
    pulledAddresses (sp - 5) = [sp - 5, sp - 4, sp - 3, sp - 2, sp - 1] := by
  simp only [pulledAddresses, List.cons.injEq, and_true, true_and]
  refine ⟨?_, ?_, ?_, ?_⟩ <;> bv_omega

theorem portOf_pulledAddresses {s : State} (hclear : frameClearOfPorts s) :
    ∀ adr ∈ pulledAddresses (s.sp - 5), portOf adr = none := by
  obtain ⟨h1, h2, h3, h4, h5⟩ := hclear
  rw [pulledAddresses_sub_five]
  simp only [List.forall_mem_cons]
  exact ⟨h5, h4, h3, h2, h1, nofun⟩

theorem flagsOf_of_isCC {c : Byte} {s : State} (h : isCC c s) : flagsOf c = flags s := by
  obtain ⟨hI, hN, hZ, hV, hC⟩ := h
  rw [flagsOf, hI, hN, hZ, hV, hC, flags]

/-- After the writes of a frame, its five cells hold CC, A, X, Y and the return address. -/
theorem peek_frame {ret c : Byte} {s t : State} (hclear : frameClearOfPorts s) (h : didWrites (frame ret c s) s t) :
    (pulledAddresses (s.sp - 5)).map t.peek = [c, s.a, s.x, s.y, ret] := by
  obtain ⟨hcells, -⟩ := h
  have hwritten : ∀ adr ∈ pulledAddresses (s.sp - 5), t.peek adr = lastWritten (frame ret c s) adr (s.peek adr) :=
    fun adr hadr => (hcells adr).trans (if_pos (portOf_pulledAddresses hclear adr hadr))
  rw [List.map_congr_left hwritten, pulledAddresses_sub_five]
  simp [frame, lastWritten]

/-- RTI after an entry of Trap or IRQ gives back the registers and flags, PC being the saved one (R262). -/
theorem exec_rti_of_enterException {e : Event} (he : e ≠ .reset) (ret : Byte) {s : State}
    (hclear : frameClearOfPorts s) :
    ∃ u, exec .rti (enterException e ret s) = .next u ∧ regs u = (s.a, s.x, s.y, s.sp, ret) ∧ flags u = flags s := by
  obtain ⟨-, -, -, hsp, -⟩ := enterException_regs e ret s
  have hpulled : readMany (pulledAddresses (enterException e ret s).sp) (enterException e ret s) =
      ([(readCC s).1, s.a, s.x, s.y, ret], enterException e ret s) := by
    rw [hsp, readMany_of_cells (portOf_pulledAddresses hclear), peek_frame hclear (didWrites_enterException he ret s)]
  refine ⟨_, (exec_rti _).trans (congrArg _ (returnFromException_eq_restore hpulled)), ?_, ?_⟩
  · rw [regs_restore, hsp, BitVec.sub_add_cancel]
  · rw [flags_restore, flagsOf_of_isCC (isCC_readCC s)]

/-- The boundary takes the interrupt when the line is high and I = 0 (60_exceptions.md R253). -/
theorem step_of_interrupt {s : State} (hline : lineHigh s = true) (hI : s.flagI = false) :
    step s = .next (enterException .irq s.pc s.passBoundary) := by
  have hreset : s.boundary.head? ≠ some .reset := by
    intro h
    obtain ⟨later, hb⟩ := List.head?_eq_some_iff.mp h
    simp [lineHigh, hb] at hline
  rw [step, boundaryEvent_of_no_reset hreset, hline, hI]
  rfl

/-- Settles O15: both entries save what RTI restores. -/
theorem exceptionThenReturnRestoresAll : Obligations.ExceptionThenReturnRestoresAll := by
  constructor
  · intro s hline hI hclear
    exact ⟨_, (exec_rti_of_enterException (e := .irq) nofun s.pc (s := s.passBoundary) hclear).imp
      fun _ h => ⟨step_of_interrupt hline hI, h⟩⟩
  · intro code s hclear
    exact ⟨_, (exec_rti_of_enterException (e := .trap) nofun s.pc hclear).imp fun _ h => ⟨exec_undefined code s, h⟩⟩

end Sys2Proof.Proofs.ExceptionReturn
end

section
/-!
The sum and the difference of bytes (00_scope.md R6, R7) in exact arithmetic: result and carry together are the exact sum,
V is the signed range. A difference is the sum with the complement and the inverted borrow, so its result and V are read off
the sum's.
-/

namespace Sys2Proof.Proofs.ByteArithmetic

open Sys2Proof.Machine Sys2Proof.Claims Sys2Proof.Proofs.AluTable Sys2Proof.Proofs.OperandAccesses

/-! ### Sums -/

theorem add8_r_eq_sumByte (a b : Byte) (cin : Bool) : (add8 a b cin).r = sumByte a b cin :=
  BitVec.eq_of_toNat_eq (by simp [add8, Result.ofByte, sumByte])

theorem toNat_add8_r (a b : Byte) (cin : Bool) : (add8 a b cin).r.toNat = (a.toNat + b.toNat + cin.toNat) % 256 :=
  BitVec.toNat_ofNat _ _

/-- The carry out is worth 256: with it, the result is the exact sum. -/
theorem add8_exact (a b : Byte) (cin : Bool) :
    256 * (add8 a b cin).c.toNat + (add8 a b cin).r.toNat = a.toNat + b.toNat + cin.toNat := by
  have ha := a.isLt
  have hb := b.isLt
  have hcin := cin.toNat_le
  rw [add8_c, toNat_add8_r]
  by_cases hcarry : 256 ≤ a.toNat + b.toNat + cin.toNat
  · rw [decide_eq_true hcarry, Bool.toNat_true]
    omega
  · rw [decide_eq_false hcarry, Bool.toNat_false]
    omega

/-- V: operands of one sign and a result of the other, exactly when the signed sum leaves -128..127. -/
theorem add8_v_eq_overflows (a b : Byte) (cin : Bool) : (add8 a b cin).v = overflows (a.toInt + b.toInt + cin.toNat) := by
  have ha := a.isLt
  have hb := b.isLt
  have hcin := cin.toNat_le
  have hv : (add8 a b cin).v = (a.msb == b.msb && (add8 a b cin).r.msb != a.msb) := rfl
  rw [hv, Bool.eq_iff_iff, overflow_iff, toNat_add8_r, overflows, decide_eq_true_iff, toInt_eq, toInt_eq]
  omega

/-! ### Differences -/

theorem sub8_r_eq_add8_not (a b : Byte) (bin : Bool) : (sub8 a b bin).r = (add8 a (~~~b) (!bin)).r := by
  rw [sub8_eq_add8_not]

theorem sub8_v_eq_add8_not (a b : Byte) (bin : Bool) : (sub8 a b bin).v = (add8 a (~~~b) (!bin)).v := by
  rw [sub8_eq_add8_not]

theorem toNat_sub8_r (a b : Byte) (bin : Bool) :
    (sub8 a b bin).r.toNat = (a.toNat + 512 - b.toNat - bin.toNat) % 256 := by
  have hb := b.isLt
  have hsum := toNat_add_not a b bin
  rw [sub8_r_eq_add8_not, toNat_add8_r]
  omega

theorem sub8_r_eq_differenceByte (a b : Byte) (bin : Bool) : (sub8 a b bin).r = differenceByte a b bin := by
  apply BitVec.eq_of_toNat_eq
  rw [toNat_sub8_r, differenceByte, BitVec.toNat_ofNat, Nat.mod_mod]

/-- The borrow is worth 256: the result is the exact difference with it added back. -/
theorem sub8_exact (a b : Byte) (bin : Bool) :
    256 * (sub8 a b bin).c.toNat + a.toNat = b.toNat + bin.toNat + (sub8 a b bin).r.toNat := by
  have ha := a.isLt
  have hb := b.isLt
  have hbin := bin.toNat_le
  rw [sub8_c, toNat_sub8_r]
  by_cases hborrow : a.toNat < b.toNat + bin.toNat
  · rw [decide_eq_true hborrow, Bool.toNat_true]
    omega
  · rw [decide_eq_false hborrow, Bool.toNat_false]
    omega

/-- The complement of a byte, as a signed number. -/
theorem toInt_not (b : Byte) : (~~~b).toInt = -b.toInt - 1 := by
  have hb := b.isLt
  rw [toInt_eq, toInt_eq, BitVec.toNat_not]
  omega

/-- V: the signed difference is the signed sum with the complement and the inverted borrow. -/
theorem sub8_v_eq_overflows (a b : Byte) (bin : Bool) : (sub8 a b bin).v = overflows (a.toInt - b.toInt - bin.toNat) := by
  have hbin : ((!bin).toNat : Int) = 1 - bin.toNat := by cases bin <;> rfl
  have hdiff : a.toInt + (~~~b).toInt + (!bin).toNat = a.toInt - b.toInt - bin.toNat := by
    rw [toInt_not, hbin]
    ring
  rw [sub8_v_eq_add8_not, add8_v_eq_overflows, hdiff]

/-! ### The flags -/

/-- The five flags that a result leaves, the mask I being kept. -/
def resultFlags (i : Bool) (f : Result) : Bool × Bool × Bool × Bool × Bool := (i, f.n, f.z, f.v, f.c)

theorem flags_setFlags (f : Result) (s : State) : flags (s.setFlags f) = resultFlags s.flagI f := rfl

theorem resultFlags_ofByte (i : Bool) (r : Byte) (v c : Bool) :
    resultFlags i (.ofByte r v c) = (i, (nz r).1, (nz r).2, v, c) := by
  rw [nz_eq]
  rfl

theorem resultFlags_add8 (i : Bool) (a b : Byte) (cin : Bool) :
    resultFlags i (add8 a b cin) = sumFlags i a b cin := by
  have hflags : resultFlags i (add8 a b cin) =
      (i, (nz (add8 a b cin).r).1, (nz (add8 a b cin).r).2, (add8 a b cin).v, (add8 a b cin).c) :=
    resultFlags_ofByte i _ _ _
  rw [hflags, add8_r_eq_sumByte, add8_v_eq_overflows, add8_c, sumFlags]

theorem resultFlags_sub8 (i : Bool) (a b : Byte) (bin : Bool) :
    resultFlags i (sub8 a b bin) = differenceFlags i a b bin := by
  have hflags : resultFlags i (sub8 a b bin) =
      (i, (nz (sub8 a b bin).r).1, (nz (sub8 a b bin).r).2, (sub8 a b bin).v, (sub8 a b bin).c) :=
    resultFlags_ofByte i _ _ _
  rw [hflags, sub8_r_eq_differenceByte, sub8_v_eq_overflows, sub8_c, differenceFlags]

/-! ### Two bytes -/

theorem toNat_append_bytes (h l : Byte) : (h ++ l).toNat = 256 * h.toNat + l.toNat := by
  rw [BitVec.toNat_append, ← Nat.shiftLeft_add_eq_or_of_lt l.isLt, Nat.shiftLeft_eq, Nat.mul_comm]

/-- The carry of the low bytes, worth 256, is what the high bytes add. -/
theorem add8_chain_exact (ah al bh bl : Byte) :
    65536 * (add8 ah bh (add8 al bl false).c).c.toNat +
        ((add8 ah bh (add8 al bl false).c).r ++ (add8 al bl false).r).toNat =
      (ah ++ al).toNat + (bh ++ bl).toNat := by
  have hlo := add8_exact al bl false
  have hhi := add8_exact ah bh (add8 al bl false).c
  rw [Bool.toNat_false] at hlo
  simp only [toNat_append_bytes]
  omega

theorem sub8_chain_exact (ah al bh bl : Byte) :
    65536 * (sub8 ah bh (sub8 al bl false).c).c.toNat + (ah ++ al).toNat =
      (bh ++ bl).toNat + ((sub8 ah bh (sub8 al bl false).c).r ++ (sub8 al bl false).r).toNat := by
  have hlo := sub8_exact al bl false
  have hhi := sub8_exact ah bh (sub8 al bl false).c
  rw [Bool.toNat_false] at hlo
  simp only [toNat_append_bytes]
  omega

/-- An exact sum of words with its carry is the sum modulo 65536, and the carry says that the sum is 65536 or more. -/
theorem word_sum_of_exact {x y r : BitVec 16} {c : Bool} (h : 65536 * c.toNat + r.toNat = x.toNat + y.toNat) :
    r = x + y ∧ c = decide (65536 ≤ x.toNat + y.toNat) := by
  have hr := r.isLt
  constructor
  · apply BitVec.eq_of_toNat_eq
    rw [BitVec.toNat_add]
    omega
  · rw [← h]
    cases c <;> simp [hr]

/-- An exact difference of words with its borrow is the difference modulo 65536, and the borrow is the unsigned order. -/
theorem word_difference_of_exact {x y r : BitVec 16} {c : Bool} (h : 65536 * c.toNat + x.toNat = y.toNat + r.toNat) :
    r = x - y ∧ c = decide (x.toNat < y.toNat) := by
  have hx := x.isLt
  have hy := y.isLt
  have hr := r.isLt
  constructor
  · apply BitVec.eq_of_toNat_eq
    rw [BitVec.toNat_sub]
    omega
  · rw [Bool.eq_iff_iff, decide_eq_true_iff, ← Bool.toNat_eq_one]
    have hc := c.toNat_le
    omega

/-- Settles O46: both chains are exact on words. -/
theorem carryChainsComputeOnTwoBytes : Obligations.CarryChainsComputeOnTwoBytes := fun ah al bh bl =>
  ⟨word_sum_of_exact (add8_chain_exact ah al bh bl), word_difference_of_exact (sub8_chain_exact ah al bh bl)⟩

end Sys2Proof.Proofs.ByteArithmetic
end

section
/-!
Integer arithmetic (43_integer_arithmetic.md R170 to R181). The instructions are three shapes, "operand into A", "A
rewritten" and "memory byte rewritten", around an operation on bytes: each shape is brought to the words of the statements
once, for every operation, and each operation once, for both its register and its memory form.
-/

namespace Sys2Proof.Proofs.IntegerArithmetic

open Sys2Proof.Machine Sys2Proof.Claims Sys2Proof.Proofs.AluTable Sys2Proof.Proofs.ByteArithmetic
  Sys2Proof.Proofs.EncodingTables Sys2Proof.Proofs.OperandAccesses Sys2Proof.Proofs.RegisterFrames
  Sys2Proof.Proofs.CellsAndPorts

/-! ### Accesses -/

/-- Writing A and the flags is no access. -/
theorem didReadSrc_setFlags_setA {o : Src} {s t : State} (h : didReadSrc o s t) (v : Byte) (f : Result) :
    didReadSrc o s ((t.setA v).setFlags f) := by
  cases o <;> exact h

theorem noAccess_rewriteA (op : Byte → Bool → Result) (s : State) : noAccess s (rewriteA op s) :=
  ⟨fun _ => rfl, inputsSame_refl s, rfl⟩

theorem didWrite_setFlags {adr : Addr} {v : Byte} {s t : State} (h : didWrite adr v s t) (f : Result) :
    didWrite adr v s (t.setFlags f) := h

theorem didRewrite_setFlags {adr : Addr} {v : Byte} {s t : State} (h : didRewrite adr v s t) (f : Result) :
    didRewrite adr v s (t.setFlags f) := h

/-- A write uses up no input: what was taken before it is all that was taken. -/
theorem tookInput_memWrite {p : Port} {s t : State} (h : tookInput p s t) (adr : Addr) (v : Byte) :
    tookInput p s (memWrite adr v t) := by
  obtain ⟨hboundary, hscheduled, hdraws⟩ := h
  refine ⟨(memWrite_boundary adr v t).trans hboundary, fun q => ?_, (memWrite_draws adr v t).trans hdraws⟩
  rw [← hscheduled q]
  cases q with
  | fb => exact memWrite_inFB adr v t
  | fc => exact memWrite_inFC adr v t

/-- A read and then a write of one address: of a cell only the write shows, of a port both events do. -/
theorem didRewrite_memWrite_afterRead (adr : Addr) (v : Byte) (s : State) :
    didRewrite adr v s (memWrite adr v (afterRead adr s)) := by
  refine ⟨fun b hb => (peek_memWrite_of_ne hb v _).trans (peek_afterRead adr b s), ?_⟩
  cases hp : portOf adr with
  | none =>
    obtain ⟨-, hinputs, hwritten⟩ := didWrite_memWrite adr v s
    rw [hp] at hwritten
    obtain ⟨hcell, hevents⟩ := hwritten
    rw [afterRead_of_cell hp]
    exact ⟨hcell, hinputs, hevents⟩
  | some p =>
    refine ⟨by simp [peek_memWrite, hp], ?_, by simp [events_memWrite, events_afterRead, hp]⟩
    rw [afterRead_of_port hp]
    exact tookInput_memWrite (takeInput_tookInput p s) adr v

/-! ### Operand into A -/

/-- `f` is the result that the operation has for this state and operand. -/
theorem operatesOnA_of_exec {i : Instr} {o : Src} {p : Ea → Bool} {op : Byte → Byte → Bool → Result} {f : Result}
    {r : Byte} {fl : Bool × Bool × Bool × Bool × Bool} {s : State} (ho : o.isImOr p = true)
    (hexec : exec i s = .next (operateA op o s)) (hop : op s.a (srcValue o s) s.flagC = f) (hr : f.r = r)
    (hflags : resultFlags s.flagI f = fl) : operatesOnA i o r fl s := by
  subst hop hr hflags
  obtain ⟨hx, hy⟩ := afterSrc_xy s ho
  exact ⟨_, hexec, by simp [regs, operateA, hx, hy], by simp [flags, resultFlags, operateA],
    didReadSrc_setFlags_setA (didReadSrc_afterSrc o s) _ _⟩

/-- An instruction that adds the operand and a carry to A. -/
theorem operatesOnA_of_add8 {i : Instr} {o : Src} {p : Ea → Bool} {op : Byte → Byte → Bool → Result} {cin : Bool}
    {s : State} (ho : o.isImOr p = true) (hexec : exec i s = .next (operateA op o s))
    (hop : op s.a (srcValue o s) s.flagC = add8 s.a (srcValue o s) cin) :
    operatesOnA i o (sumByte s.a (srcValue o s) cin) (sumFlags s.flagI s.a (srcValue o s) cin) s :=
  operatesOnA_of_exec ho hexec hop (add8_r_eq_sumByte _ _ _) (resultFlags_add8 _ _ _ _)

/-- An instruction that subtracts the operand and a borrow from A. -/
theorem operatesOnA_of_sub8 {i : Instr} {o : Src} {p : Ea → Bool} {op : Byte → Byte → Bool → Result} {bin : Bool}
    {s : State} (ho : o.isImOr p = true) (hexec : exec i s = .next (operateA op o s))
    (hop : op s.a (srcValue o s) s.flagC = sub8 s.a (srcValue o s) bin) :
    operatesOnA i o (differenceByte s.a (srcValue o s) bin) (differenceFlags s.flagI s.a (srcValue o s) bin) s :=
  operatesOnA_of_exec ho hexec hop (sub8_r_eq_differenceByte _ _ _) (resultFlags_sub8 _ _ _ _)

/-- Settles O41: ADDA adds no carry, ADCA the old C. -/
theorem addaAdcaAdd : Obligations.AddaAdcaAdd := fun _ _ ho =>
  ⟨encoded_fiveModes ho rfl rfl, encoded_fiveModes ho rfl rfl, operatesOnA_of_add8 (op := addOp) ho rfl rfl,
    operatesOnA_of_add8 (op := adcOp) ho rfl rfl⟩

/-- Settles O42: SUBA subtracts no borrow, SBCA the old C. -/
theorem subaSbcaSubtract : Obligations.SubaSbcaSubtract := fun _ _ ho =>
  ⟨encoded_fiveModes ho rfl rfl, encoded_fiveModes ho rfl rfl, operatesOnA_of_sub8 (op := subOp) ho rfl rfl,
    operatesOnA_of_sub8 (op := sbcOp) ho rfl rfl⟩

/-! ### One operand -/

/-- The model's operation leaves what the rule says, and N and Z of it, for every operand and every old C. -/
def Computes (op : Byte → Bool → Result) (f : Byte → State → Rewritten) : Prop :=
  ∀ (m : Byte) (s : State), op m s.flagC = .ofByte (f m s).r (f m s).v (f m s).c

theorem beq_ofNat_eq_decide (m : Byte) {k : Nat} (hk : k < 256) : (m == BitVec.ofNat 8 k) = decide (m.toNat = k) := by
  rw [Bool.eq_iff_iff, beq_ofNat_iff, decide_eq_true_iff, Nat.mod_eq_of_lt hk]

theorem negOp_computes : Computes negOp negated := by
  intro m s
  have hr : 0 - m = BitVec.ofNat 8 (256 - m.toNat) := by
    apply BitVec.eq_of_toNat_eq
    rw [BitVec.toNat_sub, BitVec.toNat_ofNat]
    rfl
  have hv : (m == 0x80) = decide (m.toNat = 0x80) := beq_ofNat_eq_decide m (by decide)
  have hzero : (m == 0) = decide (m.toNat = 0) := beq_ofNat_eq_decide m (by decide)
  have hc : (m != 0) = decide (m.toNat ≠ 0) := by rw [bne, hzero, decide_not]
  rw [negOp, negated, hr, hv, hc]

theorem decOp_computes : Computes decOp decremented := by
  intro m s
  have hr : m - 1 = BitVec.ofNat 8 (m.toNat + 255) := by
    apply BitVec.eq_of_toNat_eq
    rw [BitVec.toNat_sub, BitVec.toNat_ofNat, Nat.add_comm]
    rfl
  have hv : (m == 0x80) = decide (m.toNat = 0x80) := beq_ofNat_eq_decide m (by decide)
  rw [decOp, decremented, hr, hv]

theorem incOp_computes : Computes incOp incremented := by
  intro m s
  have hr : m + 1 = BitVec.ofNat 8 (m.toNat + 1) := BitVec.eq_of_toNat_eq (BitVec.toNat_add m 1)
  have hv : (m == 0x7F) = decide (m.toNat = 0x7F) := beq_ofNat_eq_decide m (by decide)
  rw [incOp, incremented, hr, hv]

section

variable {i : Instr} {op : Byte → Bool → Result} {f : Byte → State → Rewritten} {s : State}

theorem rewritesA_of_computes (hexec : exec i s = .next (rewriteA op s)) (hop : Computes op f) : rewritesA i f s := by
  refine ⟨_, hexec, ?_, ?_, noAccess_rewriteA op s⟩
  · rw [rewriteA, hop s.a s]
    rfl
  · rw [rewriteA, hop s.a s, flags_setFlags, resultFlags_ofByte]
    rfl

theorem rewritesCell_of_computes {m : Ea} (hexec : exec i s = .next (rewriteMemory op m s)) (hop : Computes op f) :
    rewritesCell i m f s := by
  have heq := hop (readValue (eaOf m s) s) s
  refine ⟨_, hexec, regs_rewriteMemory op m, ?_, ?_⟩
  · rw [rewriteMemory, heq, flags_setFlags, resultFlags_ofByte, memWrite_flagI, afterRead_flagI]
  · rw [rewriteMemory, heq]
    exact didRewrite_setFlags (didRewrite_memWrite_afterRead _ _ s) _

end

/-! ### The obligations -/

theorem exec_clra (s : State) :
    exec .clra s = .next { s with a := 0, flagN := false, flagZ := true, flagV := false, flagC := false } := rfl

/-- Settles O43: CLRA writes constants, the others leave what their operation computes. -/
theorem unaryArithmeticOnA : Obligations.UnaryArithmeticOnA := fun s =>
  ⟨encoded_of_encode rfl rfl rfl, encoded_of_encode rfl rfl rfl, encoded_of_encode rfl rfl rfl,
    encoded_of_encode rfl rfl rfl, exec_clra s, rewritesA_of_computes rfl negOp_computes,
    rewritesA_of_computes rfl decOp_computes, rewritesA_of_computes rfl incOp_computes⟩

/-- Settles O44: the same operations, on the byte at EA. -/
theorem unaryArithmeticOnMemory : Obligations.UnaryArithmeticOnMemory := fun _ _ =>
  ⟨encoded_sixModes rfl rfl rfl, encoded_sixModes rfl rfl rfl, encoded_sixModes rfl rfl rfl,
    rewritesCell_of_computes rfl negOp_computes, rewritesCell_of_computes rfl decOp_computes,
    rewritesCell_of_computes rfl incOp_computes⟩

theorem exec_clr (m : Ea) (s : State) :
    exec (.clr m) s = .next ((memWrite (eaOf m s) 0 s).setFlags (.ofByte 0 false false)) := rfl

/-- Settles O45: CLR is one write, and its flags are constants (D12, log 14). -/
theorem clrWritesZero : Obligations.ClrWritesZero := by
  intro m s
  have hregs : regs ((memWrite (eaOf m s) 0 s).setFlags (.ofByte 0 false false)) = regs s := regs_memWrite _ 0 s
  have hflags : flags ((memWrite (eaOf m s) 0 s).setFlags (.ofByte 0 false false)) =
      (s.flagI, false, true, false, false) := by
    rw [flags_setFlags, memWrite_flagI]
    rfl
  exact ⟨encoded_sixModes rfl rfl rfl, _, exec_clr m s, hregs, hflags, didWrite_setFlags (didWrite_memWrite _ 0 s) _⟩

end Sys2Proof.Proofs.IntegerArithmetic
end

section
/-!
Integer test (44_integer_test.md R190 to R196). A test is one read of its operand and then a write of the result flags, so
registers and accesses are the read's; the flags are those that the discarded result leaves.
-/

namespace Sys2Proof.Proofs.IntegerTest

open Sys2Proof.Machine Sys2Proof.Claims Sys2Proof.Proofs.Branches Sys2Proof.Proofs.ByteArithmetic
  Sys2Proof.Proofs.EncodingTables Sys2Proof.Proofs.Jumps Sys2Proof.Proofs.OperandAccesses

/-! ### The shared shape -/

/-- Without automatic update the read of an operand changes no register (30_encoding.md R59). -/
theorem regs_afterSrc {p : Ea → Bool} {o : Src} (ho : o.isImOr p = true) (s : State) : regs (afterSrc o s) = regs s := by
  obtain ⟨hx, hy⟩ := afterSrc_xy s ho
  simp [regs, hx, hy]

theorem regs_setFlags (f : Result) (s : State) : regs (s.setFlags f) = regs s := rfl

/-- Writing the flags is no access. -/
theorem didReadSrc_setFlags {o : Src} {s t : State} (h : didReadSrc o s t) (f : Result) :
    didReadSrc o s (t.setFlags f) := by
  cases o <;> exact h

/-- `f` is the result that is discarded, but for its flags. -/
theorem tests_of_exec {i : Instr} {o : Src} {p : Ea → Bool} {f : Result} {fl : Bool × Bool × Bool × Bool × Bool}
    {s : State} (ho : o.isImOr p = true) (hexec : exec i s = .next ((afterSrc o s).setFlags f))
    (hflags : resultFlags s.flagI f = fl) : tests i o fl s := by
  refine ⟨_, hexec, (regs_setFlags f _).trans (regs_afterSrc ho s), ?_, didReadSrc_setFlags (didReadSrc_afterSrc o s) f⟩
  rw [flags_setFlags, afterSrc_flagI, hflags]

/-! ### Compares -/

/-- An instruction that subtracts the operand from a register and keeps the flags alone. -/
theorem tests_of_testAgainst_subOp {i : Instr} {o : Src} {p : Ea → Bool} {reg : Byte} {s : State} (ho : o.isImOr p = true)
    (hexec : exec i s = .next (testAgainst subOp reg o s)) :
    tests i o (differenceFlags s.flagI reg (srcValue o s) false) s :=
  tests_of_exec ho hexec (resultFlags_sub8 _ _ _ _)

/-- Settles O48: the four compares differ in the register and in the modes they have. -/
theorem comparesSetFlagsOnly : Obligations.ComparesSetFlagsOnly := by
  refine ⟨fun o s ho => ⟨encoded_fiveModes ho rfl rfl, ?cmpa⟩,
    fun o s ho => ⟨encoded_fiveModes ho (encodeIf_true ho _) rfl, encoded_fiveModes ho (encodeIf_true ho _) rfl, ?cmpx,
      ?cmpy⟩,
    fun o s ho => ⟨encoded_fiveModes ho (encodeIf_true ho _) rfl, ?cmpsp⟩⟩
  case cmpa => exact tests_of_testAgainst_subOp ho (exec_cmpa o s)
  case cmpx => exact tests_of_testAgainst_subOp ho (exec_cmpx o s)
  case cmpy => exact tests_of_testAgainst_subOp ho (exec_cmpy o s)
  case cmpsp => exact tests_of_testAgainst_subOp ho (exec_cmpsp o s)

/-! ### BITA, TSTA, TST -/

theorem exec_bita (o : Src) (s : State) :
    exec (.bita o) s = .next ((afterSrc o s).setFlags (.ofByte (s.a &&& srcValue o s) false s.flagC)) := rfl

theorem exec_tsta (s : State) : exec .tsta s = .next (s.setFlags (.ofByte s.a false false)) := rfl

/-- TST's one read is that of a memory operand without automatic update. -/
theorem exec_tst (m : Ea) (s : State) :
    exec (.tst m) s =
      .next ((afterSrc (.loc (.ea m)) s).setFlags (.ofByte (readValue (eaOf m s) s) false false)) := rfl

theorem setFlags_ofByte (r : Byte) (v c : Bool) (s : State) :
    s.setFlags (.ofByte r v c) = { s with flagN := (nz r).1, flagZ := (nz r).2, flagV := v, flagC := c } := by
  rw [nz_eq]
  rfl

/-- Settles O49: each leaves the flags of one byte; BITA keeps C, TSTA and TST clear it. -/
theorem bitAndTstSetFlagsOnly : Obligations.BitAndTstSetFlagsOnly := by
  refine ⟨fun o s ho => ⟨encoded_fiveModes ho rfl rfl, ?bita⟩, fun s => ⟨encoded_of_encode rfl rfl rfl, ?tsta⟩,
    fun m s => ⟨encoded_sixModes rfl rfl rfl, ?tst⟩⟩
  case bita => exact tests_of_exec ho (exec_bita o s) (resultFlags_ofByte _ _ _ _)
  case tsta => rw [exec_tsta, setFlags_ofByte]
  case tst =>
    have hm : (Src.loc (.ea m)).isImOr (fun _ => true) = true := rfl
    exact tests_of_exec hm (exec_tst m s) (resultFlags_ofByte _ _ _ _)

end Sys2Proof.Proofs.IntegerTest
end

section
/-!
Logic (45_logical.md R200 to R206). ANDA, ORA and EORA are one shape, "operand into A", around an operation that acts on
each bit by itself; COMA and COM are the two forms of one operation on bytes; ANDCC and ORCC write the five flags and
nothing else.
-/

namespace Sys2Proof.Proofs.Logic

open Sys2Proof.Machine Sys2Proof.Claims Sys2Proof.Proofs.ByteArithmetic Sys2Proof.Proofs.EncodingTables
  Sys2Proof.Proofs.IntegerArithmetic

/-! ### Two operands, bit by bit -/

/-- Each bit of the operation's result is `bit` of the operands' bits; V is cleared and the old C kept. -/
def ActsOnEachBit (op : Byte → Byte → Bool → Result) (bit : Bool → Bool → Bool) : Prop :=
  ∀ (a m : Byte) (cold : Bool), ∃ r : Byte, (∀ k, r.getLsbD k = bit (a.getLsbD k) (m.getLsbD k)) ∧
    op a m cold = .ofByte r false cold

theorem andOp_actsOnEachBit : ActsOnEachBit andOp and := fun a m _ => ⟨a &&& m, fun _ => BitVec.getLsbD_and, rfl⟩

theorem orOp_actsOnEachBit : ActsOnEachBit orOp or := fun a m _ => ⟨a ||| m, fun _ => BitVec.getLsbD_or, rfl⟩

theorem eorOp_actsOnEachBit : ActsOnEachBit eorOp bne := fun a m _ => ⟨a ^^^ m, fun _ => BitVec.getLsbD_xor, rfl⟩

/-- An instruction that puts such an operation's result into A. -/
theorem operatesOnA_of_actsOnEachBit {i : Instr} {o : Src} {p : Ea → Bool} {op : Byte → Byte → Bool → Result}
    {bit : Bool → Bool → Bool} {s : State} (ho : o.isImOr p = true) (hexec : exec i s = .next (operateA op o s))
    (hop : ActsOnEachBit op bit) :
    ∃ r : Byte, (∀ k, k < 8 → r.getLsbD k = bit (s.a.getLsbD k) ((srcValue o s).getLsbD k)) ∧
      operatesOnA i o r (s.flagI, (nz r).1, (nz r).2, false, s.flagC) s := by
  obtain ⟨r, hbits, hresult⟩ := hop s.a (srcValue o s) s.flagC
  exact ⟨r, fun k _ => hbits k, operatesOnA_of_exec ho hexec hresult rfl (resultFlags_ofByte _ _ _ _)⟩

/-- Settles O50: the three operations act on each bit. -/
theorem logicOnA : Obligations.LogicOnA := fun _ _ ho =>
  ⟨encoded_fiveModes ho rfl rfl, encoded_fiveModes ho rfl rfl, encoded_fiveModes ho rfl rfl,
    operatesOnA_of_actsOnEachBit ho rfl andOp_actsOnEachBit, operatesOnA_of_actsOnEachBit ho rfl orOp_actsOnEachBit,
    operatesOnA_of_actsOnEachBit ho rfl eorOp_actsOnEachBit⟩

/-! ### Complement -/

/-- A byte and its complement add to 255, so no modulus is needed. -/
theorem not_eq_ofNat_sub (m : Byte) : ~~~m = BitVec.ofNat 8 (255 - m.toNat) := by
  apply BitVec.eq_of_toNat_eq
  rw [BitVec.toNat_not, BitVec.toNat_ofNat]
  omega

theorem comOp_computes : Computes comOp complemented := by
  intro m s
  rw [comOp, complemented, not_eq_ofNat_sub]

/-- Settles O52: one operation, on A and on the byte at EA. -/
theorem comComplements : Obligations.ComComplements := fun _ _ =>
  ⟨encoded_of_encode rfl rfl rfl, encoded_sixModes rfl rfl rfl, rewritesA_of_computes rfl comOp_computes,
    rewritesCell_of_computes rfl comOp_computes⟩

/-! ### The flag byte -/

/-- Writing I and then the four result flags writes the five flags and leaves every other component. -/
theorem setNZVC_setI (i n z v c : Bool) (s : State) :
    (s.setI i).setNZVC n z v c = { s with flagI := i, flagN := n, flagZ := z, flagV := v, flagC := c } := rfl

theorem exec_andcc (data : Byte) (s : State) :
    exec (.andcc data) s = .next ((s.setI (s.flagI && data.getLsbD 4)).setNZVC (s.flagN && data.getLsbD 3)
      (s.flagZ && data.getLsbD 2) (s.flagV && data.getLsbD 1) (s.flagC && data.getLsbD 0)) := rfl

theorem exec_orcc (data : Byte) (s : State) :
    exec (.orcc data) s = .next ((s.setI (s.flagI || data.getLsbD 4)).setNZVC (s.flagN || data.getLsbD 3)
      (s.flagZ || data.getLsbD 2) (s.flagV || data.getLsbD 1) (s.flagC || data.getLsbD 0)) := rfl

/-- Settles O51: each instruction is one write of the five flags. -/
theorem andccOrccActOnTheFlags : Obligations.AndccOrccActOnTheFlags := by
  intro data s
  refine ⟨encoded_of_encode rfl rfl rfl, encoded_of_encode rfl rfl rfl, ?andcc, ?orcc⟩
  case andcc => rw [exec_andcc, setNZVC_setI]
  case orcc => rw [exec_orcc, setNZVC_setI]

end Sys2Proof.Proofs.Logic
end

section
/-!
Shifts and rotates (46_shift_rotate.md R210 to R219). Each moves the byte one place and lets one bit in at the end that
becomes free: a result is that byte, and which bit comes in tells the five operations apart.
-/

namespace Sys2Proof.Proofs.ShiftRotate

open Sys2Proof.Machine Sys2Proof.Claims Sys2Proof.Proofs.AluTable Sys2Proof.Proofs.EncodingTables
  Sys2Proof.Proofs.IntegerArithmetic

/-! ### One place up or down, with the bit that comes in -/

/-- `m[6:0] ++ b`. -/
def shiftedUp (m : Byte) (b : Bool) : Byte := m.extractLsb 6 0 ++ BitVec.ofBool b

/-- `b ++ m[7:1]`. -/
def shiftedDown (m : Byte) (b : Bool) : Byte := BitVec.ofBool b ++ m.extractLsb 7 1

theorem getLsbD_shiftedUp (m : Byte) (b : Bool) {i : Nat} (hi : i < 8) :
    (shiftedUp m b).getLsbD i = if i = 0 then b else m.getLsbD (i - 1) := by
  rw [shiftedUp, BitVec.getLsbD_append]
  by_cases h0 : i = 0
  · simp [h0]
  · have hin : i - 1 < 7 := by omega
    simp [h0, hin]

theorem getLsbD_shiftedDown (m : Byte) (b : Bool) {i : Nat} (hi : i < 8) :
    (shiftedDown m b).getLsbD i = if i = 7 then b else m.getLsbD (i + 1) := by
  rw [shiftedDown, BitVec.getLsbD_append]
  by_cases h7 : i = 7
  · simp [h7]
  · have hin : i < 7 := by omega
    simp [h7, hin, Nat.add_comm]

/-! ### The operations on bytes -/

theorem shiftLeft_or_bit_eq_shiftedUp (m : Byte) (b : Bool) :
    (m <<< 1) ||| BitVec.ofNat 8 b.toNat = shiftedUp m b := by
  apply BitVec.eq_of_getLsbD_eq
  intro i hi
  rw [getLsbD_shiftedUp m b hi, BitVec.getLsbD_or, getLsbD_bit, BitVec.getLsbD_shiftLeft]
  by_cases h0 : i = 0 <;> simp [h0, hi]

theorem getLsbD_bit_shiftLeft_seven (b : Bool) {i : Nat} (hi : i < 8) :
    (BitVec.ofNat 8 b.toNat <<< 7).getLsbD i = (decide (i = 7) && b) := by
  rw [BitVec.getLsbD_shiftLeft, getLsbD_bit]
  by_cases h7 : i = 7
  · simp [h7]
  · have hlow : i < 7 := by omega
    simp [h7, hlow]

theorem bit_or_shiftRight_eq_shiftedDown (m : Byte) (b : Bool) :
    (BitVec.ofNat 8 b.toNat <<< 7) ||| (m >>> 1) = shiftedDown m b := by
  apply BitVec.eq_of_getLsbD_eq
  intro i hi
  rw [getLsbD_shiftedDown m b hi, BitVec.getLsbD_or, getLsbD_bit_shiftLeft_seven b hi, BitVec.getLsbD_ushiftRight]
  by_cases h7 : i = 7 <;> simp [h7, Nat.add_comm]

/-- The mask of ASR is bit 7 moved to where RORA lets the old C in. -/
theorem mask_eq_bit_shiftLeft (m : Byte) : m &&& (0x80 : Byte) = BitVec.ofNat 8 (m.getLsbD 7).toNat <<< 7 := by
  apply BitVec.eq_of_getLsbD_eq
  intro i hi
  rw [getLsbD_mask, getLsbD_bit_shiftLeft_seven _ hi]
  by_cases h7 : i = 7 <;> simp [h7]

theorem rolOp_computes : Computes rolOp rotatedLeft := by
  intro m s
  rw [rolOp, shiftLeft_or_bit_eq_shiftedUp]
  rfl

theorem lslOp_computes : Computes lslOp shiftedLeft := by
  intro m s
  rw [lslOp_eq_rolOp, rolOp, shiftLeft_or_bit_eq_shiftedUp]
  rfl

theorem rorOp_computes : Computes rorOp rotatedRight := by
  intro m s
  rw [rorOp, bit_or_shiftRight_eq_shiftedDown]
  rfl

theorem lsrOp_computes : Computes lsrOp shiftedRight := by
  intro m s
  rw [lsrOp_eq_rorOp, rorOp, bit_or_shiftRight_eq_shiftedDown, Bool.false_xor]
  rfl

/-- ASR with its mask as a literal byte, the form in which the lemmas about bits speak of it. -/
theorem asrOp_eq (m : Byte) (c : Bool) :
    asrOp m c = .ofByte ((m &&& (0x80 : Byte)) ||| (m >>> 1)) false (m.getLsbD 0) := rfl

theorem asrOp_computes : Computes asrOp shiftedRightArith := by
  intro m s
  rw [asrOp_eq, mask_eq_bit_shiftLeft, bit_or_shiftRight_eq_shiftedDown]
  rfl

/-! ### The instructions -/

theorem asra_rewritesA (s : State) : rewritesA .asra shiftedRightArith s := rewritesA_of_computes rfl asrOp_computes
theorem lsla_rewritesA (s : State) : rewritesA .lsla shiftedLeft s := rewritesA_of_computes rfl lslOp_computes
theorem lsra_rewritesA (s : State) : rewritesA .lsra shiftedRight s := rewritesA_of_computes rfl lsrOp_computes
theorem rola_rewritesA (s : State) : rewritesA .rola rotatedLeft s := rewritesA_of_computes rfl rolOp_computes
theorem rora_rewritesA (s : State) : rewritesA .rora rotatedRight s := rewritesA_of_computes rfl rorOp_computes

/-- Settles O53: each operation, on A. -/
theorem shiftsOfA : Obligations.ShiftsOfA := fun s =>
  ⟨encoded_of_encode rfl rfl rfl, encoded_of_encode rfl rfl rfl, encoded_of_encode rfl rfl rfl,
    encoded_of_encode rfl rfl rfl, encoded_of_encode rfl rfl rfl, asra_rewritesA s, lsla_rewritesA s, lsra_rewritesA s,
    rola_rewritesA s, rora_rewritesA s⟩

/-- Settles O54: the same operations, on the byte at EA. -/
theorem shiftsOfMemory : Obligations.ShiftsOfMemory := fun _ _ =>
  ⟨encoded_sixModes rfl rfl rfl, encoded_sixModes rfl rfl rfl, encoded_sixModes rfl rfl rfl,
    encoded_sixModes rfl rfl rfl, encoded_sixModes rfl rfl rfl, rewritesCell_of_computes rfl asrOp_computes,
    rewritesCell_of_computes rfl lslOp_computes, rewritesCell_of_computes rfl lsrOp_computes,
    rewritesCell_of_computes rfl rolOp_computes, rewritesCell_of_computes rfl rorOp_computes⟩

end Sys2Proof.Proofs.ShiftRotate
end

section
/-!
Rotations in a row (46_shift_rotate.md R216, R218). C and A are a ring of nine bits that ROLA and RORA turn by one place
(C10, C15; log 23), so nine times the same rotation turns it once around.
-/

namespace Sys2Proof.Proofs.Rotations

open Sys2Proof.Machine Sys2Proof.Claims Sys2Proof.Proofs.ShiftRotate

/-! ### The ring of C and A -/

/-- Bit `k` of the ring: bits 7 to 0 of A, above them C, and then bit 0 again. -/
def ringBit (s : State) (k : Nat) : Bool := (BitVec.cons s.flagC s.a).getLsbD (k % 9)

theorem ringBit_of_lt (s : State) {k : Nat} (hk : k < 8) : ringBit s k = s.a.getLsbD k := by
  have hmod : k % 9 = k := by omega
  rw [ringBit, hmod, BitVec.getLsbD_cons, if_neg (by omega)]

theorem ringBit_eight (s : State) : ringBit s 8 = s.flagC := by
  rw [ringBit, BitVec.getLsbD_cons, if_pos rfl]

theorem ringBit_mod (s : State) (k : Nat) : ringBit s (k % 9) = ringBit s k := by
  rw [ringBit, Nat.mod_mod, ringBit]

theorem ringBit_add_mul (s : State) (k d : Nat) : ringBit s (k + 9 * d) = ringBit s k := by
  rw [ringBit, Nat.add_mul_mod_self_left, ringBit]

/-- The ring determines A and C. -/
theorem eq_of_ringBit_eq {s t : State} (h : ∀ k, ringBit t k = ringBit s k) : t.a = s.a ∧ t.flagC = s.flagC := by
  constructor
  · apply BitVec.eq_of_getLsbD_eq
    intro k hk
    rw [← ringBit_of_lt t hk, ← ringBit_of_lt s hk, h k]
  · rw [← ringBit_eight t, ← ringBit_eight s, h 8]

/-! ### One rotation -/

/-- The instruction has a next state, turns the ring down by `d` places and keeps X, Y, SP and PC. -/
def TurnsRing (i : Instr) (d : Nat) : Prop :=
  ∀ s, ∃ t, exec i s = .next t ∧ (regs t).2 = (regs s).2 ∧ ∀ k, ringBit t k = ringBit s (k + d)

/-- It is enough to follow the nine bits from A and C to A and C. -/
theorem turnsRing_of_rewritesA {i : Instr} {f : Byte → State → Rewritten} {d : Nat} (hi : ∀ s, rewritesA i f s)
    (hbits : ∀ s k, k < 8 → (f s.a s).r.getLsbD k = ringBit s (k + d)) (hcarry : ∀ s, (f s.a s).c = ringBit s (8 + d)) :
    TurnsRing i d := by
  intro s
  obtain ⟨t, hexec, hregs, hflags, -⟩ := hi s
  have ha : t.a = (f s.a s).r := congrArg (fun q => q.1) hregs
  have hc : t.flagC = (f s.a s).c := congrArg (fun q => q.2.2.2.2) hflags
  refine ⟨t, hexec, congrArg (fun q => q.2) hregs, fun k => ?_⟩
  have hplace : ringBit t (k % 9) = ringBit s (k % 9 + d) := by
    rcases (show k % 9 < 8 ∨ k % 9 = 8 by omega) with hk | hk
    · rw [ringBit_of_lt t hk, ha, hbits s _ hk]
    · rw [hk, ringBit_eight, hc, hcarry s]
  rw [← ringBit_mod t, hplace, ← ringBit_mod s, Nat.mod_add_mod, ringBit_mod]

/-- ROLA turns up by one place, which is down by eight. -/
theorem rola_turnsRing : TurnsRing .rola 8 := by
  refine turnsRing_of_rewritesA rola_rewritesA (fun s k hk => ?_) (fun s => ?_)
  · have hbit : (rotatedLeft s.a s).r.getLsbD k = if k = 0 then s.flagC else s.a.getLsbD (k - 1) :=
      getLsbD_shiftedUp s.a s.flagC hk
    rw [hbit]
    cases k with
    | zero => exact (ringBit_eight s).symm
    | succ j => exact ((ringBit_add_mul s j 1).trans (ringBit_of_lt s (by omega))).symm
  · exact ((ringBit_add_mul s 7 1).trans (ringBit_of_lt s (by omega))).symm

theorem rora_turnsRing : TurnsRing .rora 1 := by
  refine turnsRing_of_rewritesA rora_rewritesA (fun s k hk => ?_) (fun s => ?_)
  · have hbit : (rotatedRight s.a s).r.getLsbD k = if k = 7 then s.flagC else s.a.getLsbD (k + 1) :=
      getLsbD_shiftedDown s.a s.flagC hk
    rw [hbit]
    split
    case isTrue h7 => rw [h7, ringBit_eight]
    case isFalse h7 => rw [ringBit_of_lt s (by omega)]
  · exact ((ringBit_add_mul s 0 1).trans (ringBit_of_lt s (by omega))).symm

/-! ### Rotations in a row -/

theorem repeated_succ {i : Instr} {s t : State} (hexec : exec i s = .next t) (n : Nat) :
    repeated i (n + 1) s = repeated i n t := by
  rw [repeated, hexec]

theorem repeated_turnsRing {i : Instr} {d : Nat} (hi : TurnsRing i d) (n : Nat) :
    ∀ s, ∃ t, repeated i n s = .next t ∧ (regs t).2 = (regs s).2 ∧ ∀ k, ringBit t k = ringBit s (k + n * d) := by
  induction n with
  | zero => exact fun s => ⟨s, rfl, rfl, fun k => by rw [Nat.zero_mul, Nat.add_zero]⟩
  | succ n ih =>
    intro s
    obtain ⟨u, hexec, hregs, hring⟩ := hi s
    obtain ⟨t, hrest, hregs', hring'⟩ := ih u
    refine ⟨t, (repeated_succ hexec n).trans hrest, hregs'.trans hregs, fun k => ?_⟩
    rw [hring', hring, Nat.succ_mul, Nat.add_assoc]

/-- Nine times the same turn, whatever its width, is a number of whole turns. -/
theorem repeated_nine_restores {i : Instr} {d : Nat} (hi : TurnsRing i d) (s : State) :
    ∃ t, repeated i 9 s = .next t ∧ regs t = regs s ∧ t.flagC = s.flagC := by
  obtain ⟨t, hrun, hregs, hring⟩ := repeated_turnsRing hi 9 s
  obtain ⟨ha, hc⟩ := eq_of_ringBit_eq fun k => (hring k).trans (ringBit_add_mul s k d)
  exact ⟨t, hrun, Prod.ext ha hregs, hc⟩

/-- Settles O55: both rotations turn the ring. -/
theorem nineRotationsRestore : Obligations.NineRotationsRestore := by
  intro s
  obtain ⟨t, hrola, hregs, hc⟩ := repeated_nine_restores rola_turnsRing s
  obtain ⟨u, hrora, hregs', hc'⟩ := repeated_nine_restores rora_turnsRing s
  exact ⟨t, u, hrola, hrora, hregs, hc, hregs', hc'⟩

end Sys2Proof.Proofs.Rotations
end

section
/-!
The stack operations (47_stack.md R225 to R232). A push is one write just below SP, a pull one read at SP and a register
write; CC goes over the stack as a byte (10_state.md R13, R19).
-/

namespace Sys2Proof.Proofs.StackOperations

open Sys2Proof.Machine Sys2Proof.Claims Sys2Proof.Proofs.EncodingTables Sys2Proof.Proofs.ExceptionEntry
  Sys2Proof.Proofs.DataMovement Sys2Proof.Proofs.Jumps

section

variable (v : Byte) (s : State)

/-! ### Push and pull -/

theorem regs_push : regs (push v s) = (s.a, s.x, s.y, s.sp - 1, s.pc) := by
  simp [regs]

theorem flags_push : flags (push v s) = flags s := by
  simp [flags]

theorem regs_pull : regs (pull s).2 = (s.a, s.x, s.y, s.sp + 1, s.pc) := by
  simp [regs]

theorem flags_pull : flags (pull s).2 = flags s := by
  simp [flags]

/-! ### The instructions as pushes and pulls -/

theorem exec_psha : exec .psha s = .next (push s.a s) := rfl

theorem exec_pshx : exec .pshx s = .next (push s.x s) := rfl

theorem exec_pshy : exec .pshy s = .next (push s.y s) := rfl

theorem exec_pshcc : exec .pshcc s = .next (push (readCC s).1 (readCC s).2) := rfl

theorem exec_pula : exec .pula s = .next ((pull s).2.setA (pull s).1) := rfl

theorem exec_pulx : exec .pulx s = .next ((pull s).2.setX (pull s).1) := rfl

theorem exec_puly : exec .puly s = .next ((pull s).2.setY (pull s).1) := rfl

theorem exec_pulcc : exec .pulcc s = .next (writeCC (pull s).1 (pull s).2) := rfl

end

/-- A push of a register stores it just below SP. -/
theorem stores_of_push {i : Instr} {v : Byte} {s : State} (hexec : exec i s = .next (push v s)) :
    stores i (s.sp - 1) v (s.a, s.x, s.y, s.sp - 1, s.pc) s :=
  ⟨_, hexec, regs_push v s, flags_push v s, didWrite_push v s⟩

section

variable {adr : Addr} {s t : State} (h : didRead adr s t) (v : Byte)
include h

/-! A write of A, X, Y or CC is no access. -/

theorem didRead_setA : didRead adr s (t.setA v) := h

theorem didRead_setX : didRead adr s (t.setX v) := h

theorem didRead_setY : didRead adr s (t.setY v) := h

theorem didRead_writeCC : didRead adr s (writeCC v t) := h

end

/-! ### The obligations -/

/-- Settles O56: each of the three is one push. -/
theorem pushesWriteBelowSP : Obligations.PushesWriteBelowSP := fun s =>
  ⟨encoded_of_encode rfl rfl rfl, encoded_of_encode rfl rfl rfl, encoded_of_encode rfl rfl rfl,
    stores_of_push (exec_psha s), stores_of_push (exec_pshx s), stores_of_push (exec_pshy s)⟩

/-- Settles O57: each of the three is one pull, and a write of the register with the byte it gives. -/
theorem pullsReadAtSP : Obligations.PullsReadAtSP := by
  intro s
  have hread : didRead s.sp s (pull s).2 := didRead_pull s
  refine ⟨encoded_of_encode rfl rfl rfl, encoded_of_encode rfl rfl rfl, encoded_of_encode rfl rfl rfl, ?pula, ?pulx,
    ?puly⟩
  case pula => exact ⟨_, exec_pula s, by simp [regs], flags_pull s, didRead_setA hread _⟩
  case pulx => exact ⟨_, exec_pulx s, by simp [regs], flags_pull s, didRead_setX hread _⟩
  case puly => exact ⟨_, exec_puly s, by simp [regs], flags_pull s, didRead_setY hread _⟩

/-- Settles O58: PSHCC pushes CC as it is read, which draws its open bits first; PULCC writes CC with the byte pulled. -/
theorem pshccAndPulcc : Obligations.PshccAndPulcc := by
  intro s
  refine ⟨encoded_of_encode rfl rfl rfl, encoded_of_encode rfl rfl rfl, ?pshcc, ?pulcc⟩
  case pshcc =>
    have hwrite : didWrite (s.sp - 1) (readCC s).1 { s with draws := s.draws + 1 } (push (readCC s).1 (readCC s).2) :=
      didWrite_push _ (readCC s).2
    exact ⟨(readCC s).1, _, isCC_readCC s, exec_pshcc s, regs_push _ (readCC s).2, flags_push _ (readCC s).2, hwrite⟩
  case pulcc =>
    exact ⟨_, exec_pulcc s, (regs_writeCC _ _).trans (regs_pull s), flags_writeCC _ _,
      didRead_writeCC (didRead_pull s) _⟩

end Sys2Proof.Proofs.StackOperations
end

section
/-!
NOP (48_misc.md R240) and the cycle numbers (70_reset_and_hazards.md R284, R286; an annotation, log 17).
-/

namespace Sys2Proof.Proofs.NopAndCycles

open Sys2Proof.Machine Sys2Proof.Claims Sys2Proof.Proofs.EncodingTables Sys2Proof.Proofs.FetchAndReset

/-! ### NOP -/

theorem exec_nop (s : State) : exec .nop s = .next s := rfl

/-- Settles O59: nothing is done beyond the fetch of one byte. -/
theorem nopDoesNothing : Obligations.NopDoesNothing := by
  refine ⟨encoded_of_encode rfl rfl rfl, exec_nop, fun s hfetches hheld => ?_⟩
  have hdecode : decode [0x00] = .ok (.nop, []) := rfl
  rw [step_of_decode_held hfetches hheld hdecode, exec_nop]
  rfl

/-! ### Cycle numbers -/

/-- The cycle numbers of every defined instruction but RTI. -/
def IsShort (n : Nat) : Prop := 2 ≤ n ∧ n ≤ 5

theorem isShort_two : IsShort 2 := ⟨by decide, by decide⟩

theorem isShort_three : IsShort 3 := ⟨by decide, by decide⟩

theorem isShort_four : IsShort 4 := ⟨by decide, by decide⟩

theorem isShort_five : IsShort 5 := ⟨by decide, by decide⟩

theorem isShort_srcCycles {im mem : Nat} (him : IsShort im) (hmem : IsShort mem) (o : Src) :
    IsShort (srcCycles im mem o) := by
  cases o with
  | im => exact him
  | loc => exact hmem

theorem isShort_jumpCycles {ab indexed : Nat} (hab : IsShort ab) (hindexed : IsShort indexed) (m : Ea) :
    IsShort (jumpCycles ab indexed m) := by
  cases m with
  | ab => exact hab
  | ns | nx | ax | ny | ay => exact hindexed

theorem isShort_locCycles (l : Loc) : IsShort (locCycles l) := by
  cases l with
  | ea => exact isShort_three
  | auto => exact isShort_four

/-- The case split goes by whether the number depends on the addressing mode. -/
theorem cycles_isShort {i : Instr} (hdefined : ¬ ∃ code, i = .undefined code) (hrti : i ≠ .rti) :
    ∃ n, Instr.cycles i = some n ∧ IsShort n := by
  cases i with
  | undefined code => exact absurd ⟨code, rfl⟩ hdefined
  | rti => exact absurd rfl hrti
  -- one number for each mode
  | jmp m => exact ⟨_, rfl, isShort_jumpCycles isShort_two isShort_four m⟩
  | jsr m => exact ⟨_, rfl, isShort_jumpCycles isShort_four isShort_five m⟩
  | ldx o | ldy o | ldsp o => exact ⟨_, rfl, isShort_srcCycles isShort_two isShort_three o⟩
  | cmpa o | cmpx o | cmpy o | cmpsp o | bita o => exact ⟨_, rfl, isShort_srcCycles isShort_three isShort_four o⟩
  | adda o | adca o | suba o | sbca o | anda o | ora o | eora o =>
    exact ⟨_, rfl, isShort_srcCycles isShort_four isShort_five o⟩
  | sta l => exact ⟨_, rfl, isShort_locCycles l⟩
  | lda o =>
    cases o with
    | im => exact ⟨_, rfl, isShort_two⟩
    | loc l => exact ⟨_, rfl, isShort_locCycles l⟩
  -- one number for all modes
  | nop | tsta | rts | tfrAToCC | tfrCCToA | tfrXToY | tfrYToX | tfrXToSP | tfrSPToX | tfrYToSP | tfrSPToY =>
    exact ⟨_, rfl, isShort_two⟩
  | clra | nega | inca | deca | coma | lsla | lsra | rola | rora | asra | psha | pshx | pshy | pshcc | pula | pulx
  | puly | pulcc | clr | tst | stx | sty | stsp => exact ⟨_, rfl, isShort_three⟩
  | andcc | orcc | neg | inc | dec | com | lsl | lsr | rol | ror | asr | leax | leay | leasp | exgACC | exgXY | exgXSP
  | exgYSP | bra | bmi | bpl | beq | bne | bvs | bvc | bcs | bcc | bhi | bls | bgt | bge | ble | blt =>
    exact ⟨_, rfl, isShort_four⟩
  | bsr => exact ⟨_, rfl, isShort_five⟩

theorem cycles_undefined (code : Byte) : Instr.cycles (.undefined code) = none := rfl

theorem cycles_rti : Instr.cycles .rti = some 6 := rfl

/-- Settles O60: an undefined code, RTI, and all the others. -/
theorem cyclesAreTwoToSix : Obligations.CyclesAreTwoToSix := by
  intro i
  by_cases hundefined : ∃ code, i = .undefined code
  · obtain ⟨code, rfl⟩ := hundefined
    simp [cycles_undefined]
  by_cases hrti : i = .rti
  · subst hrti
    simp [cycles_rti]
  obtain ⟨n, hn, hlow, hhigh⟩ := cycles_isShort hundefined hrti
  have hsix : n ≠ 6 := by omega
  simp [hn, hundefined, hrti, hlow, hsix, show n ≤ 6 by omega]

end Sys2Proof.Proofs.NopAndCycles
end

section
/-!
What a boundary does other than fetch: the interrupt entry (60_exceptions.md R253 to R260) and a Reset
(70_reset_and_hazards.md R280).
-/

namespace Sys2Proof.Proofs.BoundaryEvents

open Sys2Proof.Machine Sys2Proof.Claims Sys2Proof.Proofs.ExceptionEntry Sys2Proof.Proofs.ExceptionReturn

/-- Settles O11: the boundary is used up, and the entry made from the state after it. -/
theorem interruptIsEnteredAtTheBoundary : Obligations.InterruptIsEnteredAtTheBoundary := by
  intro s hline hI
  have hirq : Event.irq ≠ .reset := Event.noConfusion
  have hflags : flags (enterException .irq s.pc s.passBoundary) = (true, s.flagN, s.flagZ, s.flagV, s.flagC) :=
    (flags_enterException .irq s.pc s.passBoundary).trans (by simp [entrySetsI, State.passBoundary])
  exact ⟨(readCC s.passBoundary).1, enterException .irq s.pc s.passBoundary, isCC_readCC s.passBoundary,
    step_of_interrupt hline hI, regs_enterException hirq s.pc s.passBoundary, hflags,
    didWrites_enterException hirq s.pc s.passBoundary⟩

/-- Reset dominates whatever else is pending (R260). -/
theorem step_of_reset {s : State} {later : List BoundaryInput} (h : s.boundary = .reset :: later) :
    step s = .next (resetSequence s.passBoundary) := by
  have hevent : s.boundaryEvent = some .reset := by rw [State.boundaryEvent, h]
  rw [step, hevent]

/-- The reset vector's cell is no port, so the reset sequence accesses none (20_memory.md R31). -/
theorem jumpThroughVector_reset (s : State) : jumpThroughVector (vectorOf .reset) s = s.setPC (s.peek 0xFF) := by
  have hcell : portOf (vectorOf .reset) = none := by decide
  rw [jumpThroughVector, afterRead_of_cell hcell, readValue_of_cell hcell]
  rfl

/-- What R280 fixes after a Reset: PC and I, the cells, and the environment's side. -/
theorem resetSequence_spec (s : State) :
    (resetSequence s).pc = s.peek 0xFF ∧ (resetSequence s).flagI = Config.resetI ∧ cellsSame s (resetSequence s) ∧
      (resetSequence s).events = s.events ∧ (resetSequence s).boundary = s.boundary ∧
      (resetSequence s).inFB = s.inFB ∧ (resetSequence s).inFC = s.inFC := by
  rw [resetSequence, jumpThroughVector_reset]
  exact ⟨rfl, rfl, fun _ => rfl, rfl, rfl, rfl, rfl⟩

/-- Settles O13: the boundary is used up, and the reset sequence run from the state after it. -/
theorem resetJumpsThroughItsVector : Obligations.ResetJumpsThroughItsVector := by
  intro s later hboundary
  obtain ⟨hpc, hI, hcells, hevents, hlater, hFB, hFC⟩ := resetSequence_spec s.passBoundary
  have htail : s.passBoundary.boundary = later := congrArg List.tail hboundary
  exact ⟨_, step_of_reset hboundary, hpc, hI, hcells, hevents, hlater.trans htail, hFB, hFC⟩

end Sys2Proof.Proofs.BoundaryEvents
end

section
/-!
Runs (70_reset_and_hazards.md R285): none ever stops, and one that has ended (D9, log 28) stays in its self-jump.
-/

namespace Sys2Proof.Proofs.Runs

open Sys2Proof.Machine Sys2Proof.Claims Sys2Proof.Proofs.Encoding Sys2Proof.Proofs.FetchAndReset
  Sys2Proof.Proofs.MemoryAccesses Sys2Proof.Proofs.Jumps

variable {s : State}

/-! ### No run stops -/

/-- Every boundary event has a next state, and every instruction has one. -/
theorem step_eq_next (s : State) : ∃ t, step s = .next t := by
  unfold step
  split
  · exact ⟨_, rfl⟩
  · exact ⟨_, rfl⟩
  · obtain ⟨t, hexec, -⟩ := exec_accesses (fetch s.passBoundary).1 (fetch s.passBoundary).2
    exact ⟨t, hexec⟩

theorem run_succ {t : State} (hstep : step s = .next t) (k : Nat) : core.run (k + 1) s = core.run k t := by
  have hcore : core.step s = .next t := hstep
  simp only [Host.Core.run, hcore]

/-- Settles O16, by induction on the number of steps. -/
theorem noRunEverStops : Obligations.NoRunEverStops := by
  intro s k
  induction k generalizing s with
  | zero => exact ⟨s, rfl⟩
  | succ k ih =>
    obtain ⟨t, hstep⟩ := step_eq_next s
    rw [run_succ hstep k]
    exact ih t

/-! ### The self-jump -/

/-- An instruction of this many bytes at PC that goes back to its own address. -/
inductive GoesBack (s : State) : Instr → Nat → Prop where
  | jmp {m : Ea} {n : Nat} (h : eaOf m s = s.pc) : GoesBack s (.jmp m) n
  | bra {offset : Byte} (h : s.pc + 2 + offset = s.pc) : GoesBack s (.bra offset) 2

/-- The bytes of a self-jump stand in memory at PC. -/
theorem exists_goesBack_of_selfJump (h : s.selfJump = true) :
    ∃ bytes i, holdsAt s s.pc bytes ∧ decode bytes = .ok (i, []) ∧ GoesBack s i bytes.length := by
  unfold State.selfJump at h
  split at h
  case h_1 m hcell hentry =>
    exact ⟨[s.peek s.pc], .jmp m, ⟨hcell, rfl, trivial⟩, decode_of_entryOf_one hentry [], .jmp (eq_of_beq h)⟩
  case h_2 k hcell hentry =>
    have hdecode : decode [s.peek s.pc, s.peek (s.pc + 1)] = .ok (k (s.peek (s.pc + 1)), []) :=
      decode_of_entryOf_two hentry _ []
    have hheld (hcell' : portOf (s.pc + 1) = none) : holdsAt s s.pc [s.peek s.pc, s.peek (s.pc + 1)] :=
      ⟨hcell, rfl, hcell', rfl, trivial⟩
    split at h
    case h_1 offset hcell' hk =>
      exact ⟨_, _, hheld hcell', hdecode, hk ▸ .bra (eq_of_beq h)⟩
    case h_2 m hcell' hk =>
      exact ⟨_, _, hheld hcell', hdecode, hk ▸ .jmp (eq_of_beq h)⟩
    case h_3 => exact absurd h Bool.false_ne_true
  case h_3 => exact absurd h Bool.false_ne_true

/-- Run with PC past its bytes, such an instruction sets PC back and does nothing else. -/
theorem exec_of_goesBack {i : Instr} {n : Nat} (h : GoesBack s i n) :
    exec i { s.passBoundary with pc := s.pc + BitVec.ofNat 8 n } = .next s.passBoundary := by
  cases h with
  | @jmp m _ h =>
    have hea : eaOf m { s.passBoundary with pc := s.pc + BitVec.ofNat 8 n } = s.pc := by
      rw [← h]
      cases m <;> rfl
    rw [exec_jmp, hea]
    rfl
  | bra h =>
    rw [exec_bra]
    exact congrArg (fun pc => Host.Outcome.next { s.passBoundary with pc := pc }) h

/-! ### The ended run -/

theorem lineHigh_of_lineStaysLow (h : s.lineStaysLow) : lineHigh s = false := by
  obtain ⟨hscheduled, hfree⟩ := h
  unfold lineHigh
  match hb : s.boundary with
  | [] => exact hfree s.draws (by simp [hb])
  | .line level :: later =>
    have hlow : BoundaryInput.line level = .line false := hscheduled _ (by simp [hb])
    exact BoundaryInput.line.inj hlow
  | .reset :: _ => rfl

theorem fetches_of_runEnded (h : s.runEnded) : fetches s := by
  obtain ⟨-, hreset, hquiet⟩ := h
  exact ⟨fun hhead => hreset (List.mem_of_head? hhead), hquiet.imp_right lineHigh_of_lineStaysLow⟩

theorem step_of_runEnded (h : s.runEnded) : step s = .next s.passBoundary := by
  have hfetches : fetches s := fetches_of_runEnded h
  obtain ⟨hjump, -⟩ := h
  obtain ⟨bytes, i, hheld, hdecode, hback⟩ := exists_goesBack_of_selfJump hjump
  rw [step_of_decode_held hfetches hheld hdecode, exec_of_goesBack hback]

/-- Passing a boundary uses up one scheduled level or one free one; the later ones stay low. -/
theorem lineStaysLow_passBoundary (h : s.lineStaysLow) : s.passBoundary.lineStaysLow := by
  obtain ⟨hscheduled, hfree⟩ := h
  refine ⟨fun b hb => hscheduled b (List.mem_of_mem_tail hb), fun k hk => hfree k ?_⟩
  simp only [State.passBoundary, List.length_tail] at hk
  omega

theorem runEnded_passBoundary (h : s.runEnded) : s.passBoundary.runEnded := by
  obtain ⟨hjump, hreset, hquiet⟩ := h
  exact ⟨hjump, fun hmem => hreset (List.mem_of_mem_tail hmem), hquiet.imp_right lineStaysLow_passBoundary⟩

theorem sameMachine_passBoundary (s : State) : s.sameMachine s.passBoundary :=
  ⟨rfl, rfl, rfl, rfl, rfl, rfl, rfl, rfl, rfl, rfl, rfl, rfl⟩

/-- Settles O17: the step passes the boundary and changes nothing else. -/
theorem endedRunRepeats : Obligations.EndedRunRepeats := fun s h =>
  ⟨s.passBoundary, step_of_runEnded h, sameMachine_passBoundary s, runEnded_passBoundary h⟩

end Sys2Proof.Proofs.Runs
end
